-- ==== Sys2Proof/Word.lean ====
section
/-! DEFINITION. The bit-vector types of the CASim pipeline core (00_scope.md, rule R4). -/

namespace Sys2Proof

/-- A general register or a data-memory cell: `XLEN` = 8 bits (R4). -/
abbrev Byte := BitVec 8

/-- An instruction word, a program counter or a slot's fetch-PC: `ILEN` = `PC_W` = 16 bits (R4). -/
abbrev Word := BitVec 16

/-- The opcode field of an instruction word: `OPCODE_W` = 4 bits (R4). -/
abbrev Opcode := BitVec 4

/-- A 6-bit operand field of an instruction word: `field1` or `field2` (R61). -/
abbrev Field := BitVec 6

/-- A register index: `REGIDX_W` = 6 bits, every value of which names a register (R4, R10, R67). -/
abbrev RegIdx := BitVec 6

end Sys2Proof
end

