-- ==== Sys2Proof/Config.lean ====
section
/-! DEFINITION. The capacity of data memory (00_scope.md, rule R4) and the one value that the model, following the
spec's decision D4, gives to data memory that nothing has written. The machine's other sizes stand in its types
(Word.lean, Machine/State.lean): they are constants, not options. No rule of the spec leaves a value that an
instruction computes open, so this file holds no free value. -/

namespace Sys2Proof.Config

/-- `DMEM_BYTES`: the capacity of data memory in 8-bit cells (R4). -/
abbrev dmemBytes : Nat := 2048

/-- What a data-memory cell that is not listed reads as: the spec's default for `DMEM_INIT`
(R35, R200, decision D4). DESIGN CHOICE, log entry 4; unsafe: the source gives data memory no reset value. -/
abbrev unlistedByte : Byte := 0#8

end Sys2Proof.Config
end

