-- ==== Sys2Proof/Machine/State.lean ====
section
/-! DEFINITION. The state of the machine, all of it (10_state.md), as plain data; the reasons a step could stop;
and the state after reset with no program loaded (70_reset_and_hazards.md, rule R201). -/

namespace Sys2Proof.Machine

/-- The status register as five named stored bits (R16, R19). Bits 7:5 are always 0 (R18) and so are not held;
`Sreg.toByte` (Flags.lean) gives the packed byte that the observer sees. -/
structure Sreg where
  /-- Carry. -/
  c : Bool
  /-- Overflow. -/
  v : Bool
  /-- Negative. -/
  n : Bool
  /-- Sign: a stored bit, which can differ from `n ^^ v` (R19). -/
  s : Bool
  /-- Zero. -/
  z : Bool
  deriving DecidableEq, Repr

/-- A pipeline stage slot (R26). -/
structure Slot where
  /-- The slot holds an instruction; otherwise it is a bubble. -/
  valid : Bool
  /-- The instruction word as fetched. -/
  raw : Word
  /-- The value of `pc` when the word was fetched: its index in `IMEM`. -/
  fetchPc : Word
  /-- `raw[15:12]`, set by the Decode step. -/
  opcode : Opcode
  /-- `raw[11:6]`, set by the Decode step. -/
  field1 : Field
  /-- `raw[5:0]`, set by the Decode step. -/
  field2 : Field
  /-- The snapshot of `x[field1]` taken at the Decode step. -/
  op1 : Byte
  /-- The snapshot of `x[field2]` for R-format, else 0, taken at the Decode step. -/
  op2 : Byte
  deriving DecidableEq, Repr

/-- The run status (R33). -/
inductive RunStatus where
  /-- Cycles are performed. -/
  | running
  /-- The Terminate check found fetch exhausted and all slots invalid; absorbing. -/
  | halted
  /-- A fatal error was raised; absorbing. -/
  | faulted
  deriving DecidableEq, Repr

/-- The fault record (R34): which of the machine's two faults (R180), raised by the instruction fetched where,
and the offending target (R181) or word (R182). -/
inductive FaultRecord where
  /-- Code 1, BranchTargetOutOfRange (R181). -/
  | branchTargetOutOfRange (fetchPc target : Word)
  /-- Code 2, ReservedOpcode (R182). -/
  | reservedOpcode (fetchPc raw : Word)
  deriving DecidableEq, Repr

/-- Data memory as its listed cells: addresses strictly rising, all below 2048, and no cell listed that holds
what an unlisted cell reads as (`Memory.wf` in Ops.lean). -/
abbrev Memory := List Host.Cell

/-- Everything the spec gives the machine (10_state.md, the table of all state). -/
structure State where
  /-- `x[0..63]`, the general registers (R10). -/
  regs : Vector Byte 64
  /-- `pc`, the index of the next word the Fetch step will try to fetch (R14). -/
  pc : Word
  /-- `SREG` (R16). -/
  sreg : Sreg
  /-- `DMEM[0..2047]` (R23). -/
  dmem : Memory
  /-- `IMEM[0..1023]` (R24). -/
  imem : Vector Word 1024
  /-- `program_size`, 0 to 1024 (R25). -/
  programSize : Fin 1025
  /-- `F`, the Fetch slot (R27). -/
  fetchSlot : Slot
  /-- `D`, the Decode slot (R27). -/
  decodeSlot : Slot
  /-- `E`, the Execute slot (R27). -/
  executeSlot : Slot
  /-- `pending_flush` (R29). -/
  pendingFlush : Bool
  /-- `fetch_exhausted`, sticky (R30). -/
  fetchExhausted : Bool
  /-- `cycle_count`, unbounded (R31). -/
  cycleCount : Nat
  /-- `status` (R33). -/
  status : RunStatus
  /-- `fault`, meaningful only when Faulted (R34). -/
  fault : Option FaultRecord
  deriving DecidableEq, Repr

/-- Why a step could stop without a next state. The machine's own two faults are NOT here: the spec describes
their entry (R183), so raising one is a next state whose status is Faulted. -/
inductive Fault where
  /-- Raised by `memRead` and `memWrite` for an address at or above 2048, which names no cell. No instruction
  can raise it: a data address is a 6-bit field (R54). Safe: the model stops where the machine has no cell. -/
  | dataAddressOutOfRange (address : Nat)
  deriving DecidableEq, Repr

/-- Why the model gives no next state. -/
inductive Refusal where
  /-- An arm of `exec` that has no meaning yet would answer with this; none does. Safe: nothing is claimed. -/
  | notModelled (mnemonic : String)
  /-- Raised by `loadProgram` for a program of more than 1024 words, which is no state of this machine (R25,
  decision D16). No step raises it. Safe: nothing is claimed. -/
  | programTooLong (words : Nat)
  deriving DecidableEq, Repr

/-- The three outcomes of an instruction, a step or a load. -/
abbrev Result := Host.Outcome State Fault Refusal

/-- An invalid slot with every other field 0. The other fields of an invalid slot carry no meaning (R28); that
they are 0 at reset is a DESIGN CHOICE, log entry 6. -/
def Slot.empty : Slot :=
  { valid := false, raw := 0#16, fetchPc := 0#16, opcode := 0#4, field1 := 0#6, field2 := 0#6,
    op1 := 0#8, op2 := 0#8 }

/-- All five flags 0 (R35, decision D3; DESIGN CHOICE, log entry 3). -/
def Sreg.clear : Sreg := { c := false, v := false, n := false, s := false, z := false }

/-- The machine right after reset with no program loaded: the column `program_size = 0` of R201. The prefetch
found nothing to fetch, so `fetch_exhausted` is set and the Terminate check has halted the machine (R200). A
program is loaded from outside, before reset (R5, log entry 8); `resetMachine` (Reset.lean) is R200 for any
program, and gives this state for the empty one. -/
def State.reset : State :=
  { regs := Vector.replicate 64 0#8
    pc := 0#16
    sreg := Sreg.clear
    dmem := []
    imem := Vector.replicate 1024 0#16
    programSize := 0
    fetchSlot := Slot.empty
    decodeSlot := Slot.empty
    executeSlot := Slot.empty
    pendingFlush := false
    fetchExhausted := true
    cycleCount := 1
    status := .halted
    fault := none }

end Sys2Proof.Machine
end

