-- ==== Sys2Proof/Machine/Ops.lean ====
section
/-! DEFINITION. The named operations over registers and memories, raising a fault, and branch resolution
(10_state.md, 20_memory.md, 42_branch.md rule R122, 60_exceptions.md rule R183). There is no return from a fault
beside it, because the machine has none (R185). -/

namespace Sys2Proof.Machine

/-! ### General registers -/

/-- `x[i]`: no register is hard-wired and every index names one (R10, R13). -/
def State.reg (s : State) (i : RegIdx) : Byte := s.regs[i.toNat]'(i.isLt)

/-- `x[d] <- v`, and no other register changes (R11). -/
def State.writeReg (d : RegIdx) (v : Byte) (s : State) : State :=
  { s with regs := s.regs.set d.toNat v d.isLt }

/-! ### Status register -/

/-- Assigns the status register. -/
def State.setSreg (f : Sreg) (s : State) : State := { s with sreg := f }

/-! ### Data memory -/

/-- The content of cell `a`: its listed byte, or what an unlisted cell reads as. -/
def Memory.read : Memory → Nat → Byte
  | [], _ => Config.unlistedByte
  | (b, w) :: rest, a => if b = a then w else Memory.read rest a

/-- The cells without cell `a`. -/
def Memory.erase (m : Memory) (a : Nat) : Memory := m.filter fun cell => decide (cell.1 ≠ a)

/-- The cells with `(a, v)` put before the first cell of a higher address. -/
def Memory.insert (a : Nat) (v : Byte) : Memory → Memory
  | [] => [(a, v)]
  | (b, w) :: rest => if a < b then (a, v) :: (b, w) :: rest else (b, w) :: Memory.insert a v rest

/-- Cell `a` takes `v`. A cell that now holds what an unlisted cell reads as is not listed, so that equal
memories are equal data. -/
def Memory.write (m : Memory) (a : Nat) (v : Byte) : Memory :=
  if v = Config.unlistedByte then m.erase a else (m.erase a).insert a v

/-- The addresses of the cells rise strictly from above `low` on, stay below 2048, and no cell holds what an
unlisted cell reads as. -/
def Memory.wfAbove (low : Nat) : Memory → Bool
  | [] => true
  | (b, w) :: rest =>
    decide (low ≤ b) && decide (b < Config.dmemBytes) && decide (w ≠ Config.unlistedByte)
      && Memory.wfAbove (b + 1) rest

/-- The canonical form of data memory. -/
def Memory.wf (m : Memory) : Bool := Memory.wfAbove 0 m

/-- Replaces data memory. -/
def State.setDmem (m : Memory) (s : State) : State := { s with dmem := m }

/-- What the observer reads in cell `a` of data memory (R193). -/
def State.cell (s : State) (a : Nat) : Byte := s.dmem.read a

/-- `MemRead(addr, 1)` (R40). -/
def memRead (addr : Nat) (s : State) : Except Fault Byte :=
  if addr < Config.dmemBytes then .ok (s.cell addr) else .error (.dataAddressOutOfRange addr)

/-- `MemWrite(addr, 1, v)` (R40). -/
def memWrite (addr : Nat) (v : Byte) (s : State) : Except Fault State :=
  if addr < Config.dmemBytes then .ok (s.setDmem (s.dmem.write addr v))
  else .error (.dataAddressOutOfRange addr)

/-! ### Instruction memory -/

/-- `IMEM[i]` (R24, R47). Fetch reads it only for `i < program_size <= 1024`, so the value given beyond the
array is never used (R36, R54). -/
def State.imemWord (s : State) (i : Word) : Word := s.imem[i.toNat]?.getD 0#16

/-! ### Faults -/

/-- Fault entry, the one shared operation (R183): `status <- Faulted` and the record is filled; no register,
flag, memory cell, `pc` or `pending_flush` changes. That the rest of the cycle is not performed is `cycle`'s part
(Cycle.lean). No vector, no saved state and no mode exist (R183, R189). -/
def State.raise (record : FaultRecord) (s : State) : State :=
  { s with status := .faulted, fault := some record }

/-! ### Branch resolution -/

/-- A valid taken branch: `pc <- target` and `pending_flush <- 1` (R122). -/
def State.redirect (target : Word) (s : State) : State := { s with pc := target, pendingFlush := true }

/-- `ResolveBranch(target)` (R122): the range check against `program_size`, then the fault of R181 or the
redirect. -/
def resolveBranch (target : Word) (s : State) : State :=
  if s.programSize.val ≤ target.toNat then
    s.raise (.branchTargetOutOfRange s.executeSlot.fetchPc target)
  else s.redirect target

/-- The execute unit meets a reserved opcode at Commit (R182). -/
def raiseReserved (s : State) : State :=
  s.raise (.reservedOpcode s.executeSlot.fetchPc s.executeSlot.raw)

/-! ### The fault record -/

/-- The spec's numeric code of a fault (R180, decision D10). -/
def FaultRecord.code : FaultRecord → Nat
  | .branchTargetOutOfRange _ _ => 1
  | .reservedOpcode _ _ => 2

/-- The fetch-PC of the instruction that raised the fault (R34). -/
def FaultRecord.fetchPc : FaultRecord → Word
  | .branchTargetOutOfRange p _ => p
  | .reservedOpcode p _ => p

end Sys2Proof.Machine
end

