-- ==== Sys2Proof/Machine/Operands.lean ====
section
/-! DEFINITION. The operand forms: the two snapshots, the signed immediate, the shift amount, the data address
and the branch targets (30_encoding.md rules R64 to R67 and R77, 42_branch.md rules R120 and R121). The execute
unit reads the snapshots of the Execute slot, never the register file (R12, R100). -/

namespace Sys2Proof.Machine

/-- `E.op1`: the snapshot of `x[field1]` (R67, R100). -/
def op1 (s : State) : Byte := s.executeSlot.op1

/-- `E.op2`: the snapshot of `x[field2]` for R-format (R67, R100). -/
def op2 (s : State) : Byte := s.executeSlot.op2

/-- `sext_8(field2)`: the signed immediate as an 8-bit pattern (R64). -/
def imm8 (f : Field) : Byte := f.signExtend 8

/-- `sext_16(field2)`: the signed immediate as a 16-bit pattern (R64). -/
def imm16 (f : Field) : Word := f.signExtend 16

/-- The shift amount `field2[2:0]`; bits 5:3 are ignored (R66). -/
def shiftAmount (f : Field) : Nat := (f.extractLsb' 0 3).toNat

/-- `zext(field2)`: the data address, 0 to 63 (R41, R65). -/
def dataAddress (f : Field) : Nat := f.toNat

/-- BEQZ's target: the branch's own index plus one plus the immediate, modulo 2^16 (R120, decision D8). -/
def beqzTarget (f : Field) (s : State) : Word := s.executeSlot.fetchPc + 1#16 + imm16 f

/-- BR's target: the first snapshot is the high byte, the second the low byte (R121). -/
def brTarget (s : State) : Word := op1 s ++ op2 s

/-- The R-format opcodes ADD, SUB, MUL, EOR and BR, for which Decode reads a second register (R144). -/
def isRFormat (op : Opcode) : Bool :=
  op == 0#4 || op == 1#4 || op == 2#4 || op == 6#4 || op == 7#4

end Sys2Proof.Machine
end

