-- ==== Sys2Proof/Machine/Flags.lean ====
section
/-! DEFINITION. The flag computations (10_state.md, rules R16 to R20) and the packed status byte. -/

namespace Sys2Proof.Machine

/-- N: bit 7 of the result (R17). -/
def flagN (r : Byte) : Bool := r.getLsbD 7

/-- Z: the result is 0 (R17). -/
def flagZ (r : Byte) : Bool := r == 0#8

/-- C after ADD: the exact 9-bit sum exceeds 255 (R17). -/
def carryOfAdd (a b : Byte) : Bool := decide (255 < a.toNat + b.toNat)

/-- V after ADD: both operands have the same sign and the result's differs (R17). -/
def overflowOfAdd (a b r : Byte) : Bool :=
  (a.getLsbD 7 == b.getLsbD 7) && (r.getLsbD 7 != a.getLsbD 7)

/-- V after SUB: the operands differ in sign and the result's sign differs from the minuend's (R17). -/
def overflowOfSub (a b r : Byte) : Bool :=
  (a.getLsbD 7 != b.getLsbD 7) && (r.getLsbD 7 != a.getLsbD 7)

/-- MUL, ANDI, EOR, SAL and SAR assign N and Z only; S keeps its value (R19, R20). -/
def Sreg.afterLogic (r : Byte) (f : Sreg) : Sreg := { f with n := flagN r, z := flagZ r }

/-- SUB assigns V, N, S and Z; C keeps its value (R20, R102). -/
def Sreg.afterSub (a b r : Byte) (f : Sreg) : Sreg :=
  { f with
    v := overflowOfSub a b r
    n := flagN r
    s := flagN r ^^ overflowOfSub a b r
    z := flagZ r }

/-- ADD assigns all five flags (R20, R101). -/
def Sreg.afterAdd (a b r : Byte) (_f : Sreg) : Sreg :=
  { c := carryOfAdd a b
    v := overflowOfAdd a b r
    n := flagN r
    s := flagN r ^^ overflowOfAdd a b r
    z := flagZ r }

/-- The packed byte `000CVNSZ` that the observer sees (R16). The order of the flags is PRESUMED (decision D2,
general knowledge of a like machine; log entry 2); bits 7:5 are 0 (R18). Nothing of the machine reads it. -/
def Sreg.toByte (f : Sreg) : Byte :=
  0#3 ++ BitVec.ofBool f.c ++ BitVec.ofBool f.v ++ BitVec.ofBool f.n ++ BitVec.ofBool f.s ++ BitVec.ofBool f.z

end Sys2Proof.Machine
end

