-- ==== Sys2Proof/Machine/AluRegister.lean ====
section
/-! DEFINITION. ADD, SUB, MUL and EOR (40_alu_register.md). Each works on the Decode-time snapshots of the Execute
slot; its second register was read there, so the index `rs` itself is not used at Commit (R100). -/

namespace Sys2Proof.Machine

/-- A result `r` written to `x[d]` with new flags: the only outputs of an ALU instruction (R100). -/
def commitAlu (d : RegIdx) (r : Byte) (f : Sreg) (s : State) : Result := .next ((s.writeReg d r).setSreg f)

/-- The 8-bit wraparound sum (R101). -/
def addResult (a b : Byte) : Byte := BitVec.ofNat 8 (a.toNat + b.toNat)

/-- The 8-bit wraparound difference, the first operand being the minuend (R102). -/
def subResult (a b : Byte) : Byte := BitVec.ofInt 8 (a.toNat - b.toNat)

/-- The low 8 bits of the product (R103). -/
def mulResult (a b : Byte) : Byte := BitVec.ofNat 8 (a.toNat * b.toNat)

/-- ADD (R101). -/
def execAdd (rd _rs : RegIdx) (s : State) : Result :=
  let r := addResult (op1 s) (op2 s)
  commitAlu rd r (s.sreg.afterAdd (op1 s) (op2 s) r) s

/-- SUB (R102). -/
def execSub (rd _rs : RegIdx) (s : State) : Result :=
  let r := subResult (op1 s) (op2 s)
  commitAlu rd r (s.sreg.afterSub (op1 s) (op2 s) r) s

/-- MUL (R103). -/
def execMul (rd _rs : RegIdx) (s : State) : Result :=
  let r := mulResult (op1 s) (op2 s)
  commitAlu rd r (s.sreg.afterLogic r) s

/-- EOR (R104). -/
def execEor (rd _rs : RegIdx) (s : State) : Result :=
  let r := op1 s ^^^ op2 s
  commitAlu rd r (s.sreg.afterLogic r) s

end Sys2Proof.Machine
end

