-- ==== Sys2Proof/Machine/AluImmediate.lean ====
section
/-! DEFINITION. MOVI, ANDI, SAL and SAR (41_alu_immediate.md): the first operand is the snapshot `E.op1`, the second
the immediate of `field2` (R114). -/

namespace Sys2Proof.Machine

/-- Shift left with zero fill, bits shifted out lost: `(a * 2^sh) mod 2^8` (R112). -/
def salResult (a : Byte) (sh : Nat) : Byte := BitVec.ofNat 8 (a.toNat * 2 ^ sh)

/-- Arithmetic shift right: `floor(signed_8(a) / 2^sh) mod 2^8` (R113). -/
def sarResult (a : Byte) (sh : Nat) : Byte := BitVec.ofInt 8 (a.toInt / 2 ^ sh)

/-- MOVI writes no flag and uses no snapshot (R110). -/
def execMovi (rd : RegIdx) (imm : Field) (s : State) : Result := .next (s.writeReg rd (imm8 imm))

/-- ANDI (R111). -/
def execAndi (rd : RegIdx) (imm : Field) (s : State) : Result :=
  let r := op1 s &&& imm8 imm
  commitAlu rd r (s.sreg.afterLogic r) s

/-- SAL; neither C nor V is written (R112). -/
def execSal (rd : RegIdx) (imm : Field) (s : State) : Result :=
  let r := salResult (op1 s) (shiftAmount imm)
  commitAlu rd r (s.sreg.afterLogic r) s

/-- SAR; neither C nor V is written (R113). -/
def execSar (rd : RegIdx) (imm : Field) (s : State) : Result :=
  let r := sarResult (op1 s) (shiftAmount imm)
  commitAlu rd r (s.sreg.afterLogic r) s

end Sys2Proof.Machine
end

