-- ==== Sys2Proof/Machine/Branch.lean ====
section
/-! DEFINITION. BEQZ and BR (42_branch.md). The target word and the words after the branch are the pipeline's part
(Pipeline.lean); the operands are Decode-time snapshots (R214). -/

namespace Sys2Proof.Machine

/-- BEQZ: taken if the snapshot is 0; not taken, it computes and checks no target (R120). -/
def execBeqz (_rd : RegIdx) (imm : Field) (s : State) : Result :=
  if op1 s = 0#8 then .next (resolveBranch (beqzTarget imm s) s) else .next s

/-- BR: always taken (R121). -/
def execBr (_rhi _rlo : RegIdx) (s : State) : Result := .next (resolveBranch (brTarget s) s)

end Sys2Proof.Machine
end

