-- ==== Sys2Proof/Machine/LoadStore.lean ====
section
/-! DEFINITION. LDR and STR (43_load_store.md): one addressing mode, the absolute 6-bit unsigned address. -/

namespace Sys2Proof.Machine

/-- LDR: the cell is read at Commit (R130). -/
def execLdr (rd : RegIdx) (addr : Field) (s : State) : Result :=
  match memRead (dataAddress addr) s with
  | .ok v => .next (s.writeReg rd v)
  | .error f => .fault f

/-- STR: the byte stored is the snapshot `E.op1`, not the register at Commit (R131). -/
def execStr (_rd : RegIdx) (addr : Field) (s : State) : Result :=
  match memWrite (dataAddress addr) (op1 s) s with
  | .ok t => .next t
  | .error f => .fault f

end Sys2Proof.Machine
end

