-- ==== Sys2Proof/Machine/Reserved.lean ====
section
/-! DEFINITION. The four reserved opcode values, which raise the fault ReservedOpcode when, and only when, they
reach Commit (60_exceptions.md rule R182, decision D7, log entry 7). Taking the fault is their whole effect. -/

namespace Sys2Proof.Machine

/-- Opcode 12 at Commit (R182). -/
def execReserved12 (_f1 _f2 : Field) (s : State) : Result := .next (raiseReserved s)

/-- Opcode 13 at Commit (R182). -/
def execReserved13 (_f1 _f2 : Field) (s : State) : Result := .next (raiseReserved s)

/-- Opcode 14 at Commit (R182). -/
def execReserved14 (_f1 _f2 : Field) (s : State) : Result := .next (raiseReserved s)

/-- Opcode 15 at Commit (R182). -/
def execReserved15 (_f1 _f2 : Field) (s : State) : Result := .next (raiseReserved s)

end Sys2Proof.Machine
end

