-- ==== Sys2Proof/Syntax.lean ====
section
/-! DEFINITION. The instructions: one constructor per row of spec/opcode_table.json (30_encoding.md, rules R62,
R63 and R68), and the token lines of the external loader (rules R70 to R73). -/

namespace Sys2Proof

/-- An instruction word by opcode and operand fields (R63). The twelve instructions, and the four reserved
opcode values that select no instruction (R68) and fault when they reach Commit (R182). Every value of every
field is meaningful (R69). -/
inductive Instr where
  /-- Opcode 0, R-format (R101). -/
  | add (rd rs : RegIdx)
  /-- Opcode 1, R-format (R102). -/
  | sub (rd rs : RegIdx)
  /-- Opcode 2, R-format (R103). -/
  | mul (rd rs : RegIdx)
  /-- Opcode 3, I-format, signed immediate (R110). -/
  | movi (rd : RegIdx) (imm : Field)
  /-- Opcode 4, I-format, signed immediate (R120). -/
  | beqz (rd : RegIdx) (imm : Field)
  /-- Opcode 5, I-format, signed immediate (R111). -/
  | andi (rd : RegIdx) (imm : Field)
  /-- Opcode 6, R-format (R104). -/
  | eor (rd rs : RegIdx)
  /-- Opcode 7, R-format: high and low byte of the target (R121). -/
  | br (rhi rlo : RegIdx)
  /-- Opcode 8, I-format, only bits 2:0 of the immediate used (R112). -/
  | sal (rd : RegIdx) (imm : Field)
  /-- Opcode 9, I-format, only bits 2:0 of the immediate used (R113). -/
  | sar (rd : RegIdx) (imm : Field)
  /-- Opcode 10, I-format, unsigned address (R130). -/
  | ldr (rd : RegIdx) (addr : Field)
  /-- Opcode 11, I-format, unsigned address (R131). -/
  | str (rd : RegIdx) (addr : Field)
  /-- Opcode 12, reserved (R68, R182). -/
  | reserved12 (f1 f2 : Field)
  /-- Opcode 13, reserved (R68, R182). -/
  | reserved13 (f1 f2 : Field)
  /-- Opcode 14, reserved (R68, R182). -/
  | reserved14 (f1 f2 : Field)
  /-- Opcode 15, reserved (R68, R182). -/
  | reserved15 (f1 f2 : Field)
  deriving DecidableEq, Repr

/-- An operand token of program text: `R<n>` or a signed integer (R70). -/
inductive AsmOperand where
  /-- The letter `R` followed by an index. -/
  | reg (n : Nat)
  /-- A signed integer literal. -/
  | int (n : Int)
  deriving DecidableEq, Repr

/-- A non-ignored line of program text, already split at its blanks (R70). How characters make tokens is the
loader's and out of scope (00_scope.md section 3, 91_not_in_source.md N12). -/
structure AsmLine where
  /-- The mnemonic's text. -/
  mnemonic : String
  /-- The operand tokens, in order. -/
  operands : List AsmOperand
  deriving DecidableEq, Repr

/-- Why the loader fails the whole load (R72, R194); none of these is a fault of the machine. -/
inductive LoadError where
  /-- The mnemonic is none of the twelve (R73). -/
  | unknownMnemonic
  /-- The operands do not fit the mnemonic's format (R70). -/
  | malformedLine
  /-- A register index outside 0 to 63. -/
  | registerOutOfRange
  /-- An immediate outside the opcode's range. -/
  | immediateOutOfRange
  deriving DecidableEq, Repr

end Sys2Proof
end

