-- ==== Sys2Proof/Machine/Dispatch.lean ====
section
/-! DEFINITION. The execute unit: one arm per instruction (50_pipeline.md rule R142). The operand snapshots, the
fetch-PC and the raw word are those of the Execute slot of `s`. -/

namespace Sys2Proof.Machine

def exec (i : Instr) (s : State) : Host.Outcome State Fault Refusal :=
  match i with
  | .add rd rs => Sys2Proof.Machine.execAdd rd rs s
  | .sub rd rs => Sys2Proof.Machine.execSub rd rs s
  | .mul rd rs => Sys2Proof.Machine.execMul rd rs s
  | .movi rd imm => Sys2Proof.Machine.execMovi rd imm s
  | .beqz rd imm => Sys2Proof.Machine.execBeqz rd imm s
  | .andi rd imm => Sys2Proof.Machine.execAndi rd imm s
  | .eor rd rs => Sys2Proof.Machine.execEor rd rs s
  | .br rhi rlo => Sys2Proof.Machine.execBr rhi rlo s
  | .sal rd imm => Sys2Proof.Machine.execSal rd imm s
  | .sar rd imm => Sys2Proof.Machine.execSar rd imm s
  | .ldr rd addr => Sys2Proof.Machine.execLdr rd addr s
  | .str rd addr => Sys2Proof.Machine.execStr rd addr s
  | .reserved12 f1 f2 => Sys2Proof.Machine.execReserved12 f1 f2 s
  | .reserved13 f1 f2 => Sys2Proof.Machine.execReserved13 f1 f2 s
  | .reserved14 f1 f2 => Sys2Proof.Machine.execReserved14 f1 f2 s
  | .reserved15 f1 f2 => Sys2Proof.Machine.execReserved15 f1 f2 s

end Sys2Proof.Machine
end

