-- ==== Sys2Proof/WellFormed.lean ====
section
/-! DEFINITION. The checks of the loader, which decide what a well-formed program contains (30_encoding.md,
rule R72). The field types already rule out an operand that no encoding holds. -/

namespace Sys2Proof

/-- A well-formed instruction is one of the twelve: a well-formed program "contains only opcodes 0 to 11"
(R72, R68). Decoding and executing do not require it (R74). -/
def Instr.wellFormed : Instr → Bool
  | .add _ _ => true
  | .sub _ _ => true
  | .mul _ _ => true
  | .movi _ _ => true
  | .beqz _ _ => true
  | .andi _ _ => true
  | .eor _ _ => true
  | .br _ _ => true
  | .sal _ _ => true
  | .sar _ _ => true
  | .ldr _ _ => true
  | .str _ _ => true
  | .reserved12 _ _ => false
  | .reserved13 _ _ => false
  | .reserved14 _ _ => false
  | .reserved15 _ _ => false

/-- A register index is validated "against [0, 64)" (R72). -/
def registerInRange (n : Nat) : Bool := decide (n < 64)

/-- The range of the immediates of MOVI, BEQZ, ANDI, SAL and SAR: -32 to 31 (R72). -/
def immediateInRange (n : Int) : Bool := decide (-32 ≤ n ∧ n ≤ 31)

/-- The range of the addresses of LDR and STR: 0 to 63 (R72). -/
def addressInRange (n : Int) : Bool := decide (0 ≤ n ∧ n ≤ 63)

end Sys2Proof
end

