-- ==== Sys2Proof/Decode.lean ====
section
/-! DEFINITION. The instruction decoder and its inverse (30_encoding.md, rules R60 to R71): the fields of a word,
the instruction they select, the encoder, and the loader's encoding of one token line. The decoder is total on
16-bit words and never fails (R76); there is one length and no byte order (R60, R43, decision D19), so it reads
whole words. -/

namespace Sys2Proof

/-- `opcode = w[15:12]` (R61; bit positions by decision D1, log entry 1). -/
def opcodeOf (w : Word) : Opcode := w.extractLsb' 12 4

/-- `field1 = w[11:6]` (R61; decision D1). -/
def field1Of (w : Word) : Field := w.extractLsb' 6 6

/-- `field2 = w[5:0]` (R61; decision D1). -/
def field2Of (w : Word) : Field := w.extractLsb' 0 6

/-- The instruction that an opcode value selects, with its two fields (R63, R68). The opcode alone selects. The
last arm is opcode 15: a 4-bit value has no other left. -/
def Instr.ofFields (op : Opcode) (f1 f2 : Field) : Instr :=
  match op.toNat with
  | 0 => .add f1 f2
  | 1 => .sub f1 f2
  | 2 => .mul f1 f2
  | 3 => .movi f1 f2
  | 4 => .beqz f1 f2
  | 5 => .andi f1 f2
  | 6 => .eor f1 f2
  | 7 => .br f1 f2
  | 8 => .sal f1 f2
  | 9 => .sar f1 f2
  | 10 => .ldr f1 f2
  | 11 => .str f1 f2
  | 12 => .reserved12 f1 f2
  | 13 => .reserved13 f1 f2
  | 14 => .reserved14 f1 f2
  | _ => .reserved15 f1 f2

/-- The decoder: total on 16-bit words (R76). -/
def decode (w : Word) : Instr := Instr.ofFields (opcodeOf w) (field1Of w) (field2Of w)

/-- The word of three fields, `(opcode << 12) | (field1 << 6) | field2` (R61). -/
def packFields (op : Opcode) (f1 f2 : Field) : Word :=
  op.setWidth 16 <<< 12 ||| f1.setWidth 16 <<< 6 ||| f2.setWidth 16

/-- The encoder, row by row of the opcode map (R63, R71). -/
def encode : Instr → Word
  | .add rd rs => packFields 0#4 rd rs
  | .sub rd rs => packFields 1#4 rd rs
  | .mul rd rs => packFields 2#4 rd rs
  | .movi rd imm => packFields 3#4 rd imm
  | .beqz rd imm => packFields 4#4 rd imm
  | .andi rd imm => packFields 5#4 rd imm
  | .eor rd rs => packFields 6#4 rd rs
  | .br rhi rlo => packFields 7#4 rhi rlo
  | .sal rd imm => packFields 8#4 rd imm
  | .sar rd imm => packFields 9#4 rd imm
  | .ldr rd addr => packFields 10#4 rd addr
  | .str rd addr => packFields 11#4 rd addr
  | .reserved12 f1 f2 => packFields 12#4 f1 f2
  | .reserved13 f1 f2 => packFields 13#4 f1 f2
  | .reserved14 f1 f2 => packFields 14#4 f1 f2
  | .reserved15 f1 f2 => packFields 15#4 f1 f2

/-- The low `nbits` bits of `w` as an instruction word, every bit above them 0. -/
def tableWord (nbits w : Nat) : Word := BitVec.ofNat 16 (w % 2 ^ nbits)

/-- What the decoder reads from a row of the opcode table whose bits are `w`. A word is 16 bits (R60): a row of
more bits is no instruction of this machine. -/
def decodeTableWord (nbits w : Nat) : Option Instr :=
  if nbits ≤ 16 then some (decode (tableWord nbits w)) else none

/-- How a mnemonic's second operand is written (R62, R70, R72). -/
inductive AsmFormat where
  /-- R-format: a register. -/
  | register
  /-- I-format: a signed immediate, -32 to 31. -/
  | immediate
  /-- I-format: an unsigned address, 0 to 63. -/
  | address
  deriving DecidableEq, Repr

/-- The twelve mnemonics with opcode and format (R63, R73). -/
def mnemonicTable : List (String × Opcode × AsmFormat) :=
  [("ADD", 0#4, .register), ("SUB", 1#4, .register), ("MUL", 2#4, .register),
   ("MOVI", 3#4, .immediate), ("BEQZ", 4#4, .immediate), ("ANDI", 5#4, .immediate),
   ("EOR", 6#4, .register), ("BR", 7#4, .register), ("SAL", 8#4, .immediate),
   ("SAR", 9#4, .immediate), ("LDR", 10#4, .address), ("STR", 11#4, .address)]

/-- The second field of a line, checked against its range: "opcode|d|s" or "opcode|d|(imm & 0x3F)"
(R71, R72). -/
def assembleField2 : AsmFormat → AsmOperand → Except LoadError Field
  | .register, .reg n => if registerInRange n then .ok (BitVec.ofNat 6 n) else .error .registerOutOfRange
  | .immediate, .int n => if immediateInRange n then .ok (BitVec.ofInt 6 n) else .error .immediateOutOfRange
  | .address, .int n => if addressInRange n then .ok (BitVec.ofInt 6 n) else .error .immediateOutOfRange
  | .register, .int _ => .error .malformedLine
  | .immediate, .reg _ => .error .malformedLine
  | .address, .reg _ => .error .malformedLine

/-- The word of a line whose mnemonic's opcode and format are known (R71, R72). -/
def assembleOperands (op : Opcode) (fmt : AsmFormat) : List AsmOperand → Except LoadError Word
  | [.reg d, second] =>
    if registerInRange d then (assembleField2 fmt second).map (packFields op (BitVec.ofNat 6 d))
    else .error .registerOutOfRange
  | _ => .error .malformedLine

/-- The loader's encoding of one line (R71), with the checks of R72. The loader is an external collaborator
(00_scope.md section 3); nothing of the machine calls this. -/
def assembleLine (line : AsmLine) : Except LoadError Word :=
  match mnemonicTable.lookup line.mnemonic with
  | none => .error .unknownMnemonic
  | some (op, fmt) => assembleOperands op fmt line.operands

/-- The loader's encoding of a program: the words in line order, or the first failure (R70, R72). -/
def assemble : List AsmLine → Except LoadError (List Word)
  | [] => .ok []
  | line :: rest =>
    match assembleLine line with
    | .error e => .error e
    | .ok w => (assemble rest).map (w :: ·)

end Sys2Proof
end

