-- ==== Sys2Proof/Machine/Pipeline.lean ====
section
/-! DEFINITION. Steps 2 to 6 of the cycle and the cycle counter (50_pipeline.md, rules R143 to R148 and R150). Step 1
is `commit` in Cycle.lean. The ordered steps win over the source's glosses (90_conflicts.md C1, C2, C15): the word
after a taken branch commits, the word at the target is squashed, and fetch exhaustion is permanent. -/

namespace Sys2Proof.Machine

/-- The instruction that a decoded slot's opcode and fields select (R142). -/
def Slot.instr (slot : Slot) : Instr := Instr.ofFields slot.opcode slot.field1 slot.field2

/-- Step 2, Advance: `E <- D`, then `D <- F`, whole-slot copies (R143). -/
def advance (s : State) : State := { s with executeSlot := s.decodeSlot, decodeSlot := s.fetchSlot }

/-- The Decode behaviour on one slot, with registers as in `s`: a valid slot gets its fields and its snapshots,
an invalid one is left untouched (R144). -/
def Slot.decoded (slot : Slot) (s : State) : Slot :=
  if slot.valid then
    { slot with
      opcode := opcodeOf slot.raw
      field1 := field1Of slot.raw
      field2 := field2Of slot.raw
      op1 := s.reg (field1Of slot.raw)
      op2 := if isRFormat (opcodeOf slot.raw) then s.reg (field2Of slot.raw) else 0#8 }
  else slot

/-- Step 3, Decode, on the new Decode slot (R144, R145). -/
def decodeStage (s : State) : State := { s with decodeSlot := s.decodeSlot.decoded s }

/-- More instructions remain and fetch has not been marked exhausted (R146). -/
def canFetch (s : State) : Bool := decide (s.pc.toNat < s.programSize.val) && !s.fetchExhausted

/-- Step 4, Fetch (R146); also the prefetch of reset (R200). The fields it does not name keep their content. -/
def fetchStep (s : State) : State :=
  if canFetch s then
    { s with
      fetchSlot := { s.fetchSlot with valid := true, raw := s.imemWord s.pc, fetchPc := s.pc }
      pc := s.pc + 1#16 }
  else
    { s with
      fetchSlot := { s.fetchSlot with valid := false }
      fetchExhausted := s.fetchExhausted || decide (s.programSize.val ≤ s.pc.toNat) }

/-- Step 5, Flush: invalidates the Decode and the Fetch slot as they now stand; `pc` keeps the increment of step 4
(R147). -/
def flushStep (s : State) : State :=
  if s.pendingFlush then
    { s with
      decodeSlot := { s.decodeSlot with valid := false }
      fetchSlot := { s.fetchSlot with valid := false }
      pendingFlush := false }
  else s

/-- Fetch is exhausted and all three slots are invalid (R148). -/
def drained (s : State) : Bool :=
  s.fetchExhausted && !s.fetchSlot.valid && !s.decodeSlot.valid && !s.executeSlot.valid

/-- Step 6, Terminate check (R148). -/
def terminateCheck (s : State) : State := if drained s then { s with status := .halted } else s

/-- `cycle_count <- cycle_count + 1` (R150). -/
def countCycle (s : State) : State := { s with cycleCount := s.cycleCount + 1 }

/-- Steps 2 to 6 and the counter, in order (R149). -/
def finishCycle (s : State) : State :=
  countCycle (terminateCheck (flushStep (fetchStep (decodeStage (advance s)))))

/-- `s` with the word `w` in the Execute slot as the Decode step would leave it there, at the slot's index in
instruction memory, so that the next Commit runs it: three cycles after a fetch in the machine itself (R151). Used
by `State.withFetchWord` (log entry 9). -/
def placeForCommit (w : Word) (s : State) : State :=
  let i := s.executeSlot.fetchPc.toNat % 1024
  { s with
    imem := s.imem.set i w (Nat.mod_lt _ (by decide))
    programSize := ⟨max s.programSize.val (i + 1), by omega⟩
    executeSlot := Slot.decoded { s.executeSlot with valid := true, raw := w, fetchPc := BitVec.ofNat 16 i } s
    status := .running
    fault := none }

end Sys2Proof.Machine
end

