-- ==== Sys2Proof/Machine/Cycle.lean ====
section
/-! DEFINITION. One whole cycle of the machine (50_pipeline.md, rules R141 and R149; 60_exceptions.md rule R183). -/

namespace Sys2Proof.Machine

/-- Step 1, Commit: if the Execute slot is valid, the execute unit runs on it; else nothing happens (R141). -/
def commit (s : State) : Result := if s.executeSlot.valid then exec s.executeSlot.instr s else .next s

/-- What follows Commit: nothing if it raised a fault (R183), else steps 2 to 6 and the counter (R149). -/
def afterCommit (s : State) : State := if s.status = .faulted then s else finishCycle s

/-- One cycle (R149). -/
def cycle (s : State) : Result :=
  match commit s with
  | .next t => .next (afterCommit t)
  | .fault f => .fault f
  | .refused r => .refused r

/-- The step input (R5): a cycle when Running; Halted and Faulted are absorbing (R33). -/
def stepInput (s : State) : Result :=
  match s.status with
  | .running => cycle s
  | .halted => .next s
  | .faulted => .next s

end Sys2Proof.Machine
end

