-- ==== Sys2Proof/Machine/Step.lean ====
section
/-! DEFINITION. The step function, and a word placed where the next step runs it. -/

namespace Sys2Proof.Machine

/-- One step of the model is one whole cycle (00_scope.md rule R2). -/
def step (s : State) : Host.Outcome State Fault Refusal := stepInput s

/-- `s` with the instruction whose bits are `w` placed so that the very next step runs it. The machine does not
execute at its program counter: a step commits what is in the Execute slot, so the word goes there, decoded, with
its copy in instruction memory (log entry 9). -/
def State.withFetchWord (s : State) (nbits w : Nat) : State := placeForCommit (tableWord nbits w) s

end Sys2Proof.Machine
end

