-- ==== Sys2Proof/Machine/Reset.lean ====
section
/-! DEFINITION. Program load and reset as inputs of the machine (00_scope.md rule R5, 70_reset_and_hazards.md rules
R200 and R201). -/

namespace Sys2Proof.Machine

/-- The registers and controls at their reset values, before the prefetch, with the program that is loaded and data
memory at `DMEM_INIT` (R35). The values are the spec's decisions D3 to D6 (log entries 3 to 6), but for the
registers' zeros, which the source states. -/
def clearForReset (dmemInit : Memory) (s : State) : State :=
  { s with
    regs := Vector.replicate 64 0#8
    pc := 0#16
    sreg := Sreg.clear
    dmem := dmemInit
    fetchSlot := Slot.empty
    decodeSlot := Slot.empty
    executeSlot := Slot.empty
    pendingFlush := false
    fetchExhausted := false
    cycleCount := 1
    status := .running
    fault := none }

/-- `Reset()` (R200): the reset values, then the prefetch, then the Terminate check. `IMEM` and `program_size` are
inputs that it does not change; it may be applied in any status (R201). `dmemInit` is the input `DMEM_INIT`
(decision D4) in the canonical form of data memory. -/
def resetMachine (dmemInit : Memory) (s : State) : State :=
  terminateCheck (fetchStep (clearForReset dmemInit s))

/-- The words of a program from `i` on written into instruction memory. -/
def storeWords (i : Nat) : List Word → Vector Word 1024 → Vector Word 1024
  | [], m => m
  | w :: rest, m => storeWords (i + 1) rest (m.setIfInBounds i w)

/-- Program load (R5, R24, R25, R70): the words at consecutive indices from 0, their number in `program_size`. A
program of more than 1024 words is refused: it is no state of this machine (decision D16). -/
def loadProgram (words : List Word) (s : State) : Result :=
  if h : words.length < 1025 then
    .next { s with imem := storeWords 0 words s.imem, programSize := ⟨words.length, h⟩ }
  else .refused (.programTooLong words.length)

/-- A machine right after load and reset (R3, R200). -/
def boot (words : List Word) (dmemInit : Memory) : Result :=
  match loadProgram words State.reset with
  | .next s => .next (resetMachine dmemInit s)
  | .fault f => .fault f
  | .refused r => .refused r

end Sys2Proof.Machine
end

