-- ==== Sys2Proof/Safety.lean ====
section
/-! DEFINITION. The terms that claims use: frames (what an instruction leaves unchanged), the invariant of the
machine between cycles, and what of a state its later steps can depend on. -/

namespace Sys2Proof.Machine

/-! ### Frames -/

/-- Every general register but `x[d]` is as before. -/
abbrev RegsSameBut (d : RegIdx) (s t : State) : Prop := ∀ i, i ≠ d → t.reg i = s.reg i

/-- Every general register is as before. -/
abbrev RegsSame (s t : State) : Prop := ∀ i, t.reg i = s.reg i

/-- Every data-memory cell but `a` reads as before. -/
abbrev CellsSameBut (a : Nat) (s t : State) : Prop := ∀ b, b ≠ a → t.cell b = s.cell b

/-- Every data-memory cell reads as before. -/
abbrev CellsSame (s t : State) : Prop := ∀ b, t.cell b = s.cell b

/-- `pc` and `pending_flush`, which only a taken branch changes at Commit, are as before. -/
abbrev FlowSame (s t : State) : Prop := t.pc = s.pc ∧ t.pendingFlush = s.pendingFlush

/-- The run status and the fault record are as before. -/
abbrev RunSame (s t : State) : Prop := t.status = s.status ∧ t.fault = s.fault

/-- What no instruction writes at Commit is as before: the program, the three slots, `fetch_exhausted` and
`cycle_count`. -/
abbrev ControlSame (s t : State) : Prop :=
  t.imem = s.imem ∧ t.programSize = s.programSize ∧ t.fetchSlot = s.fetchSlot ∧ t.decodeSlot = s.decodeSlot ∧
    t.executeSlot = s.executeSlot ∧ t.fetchExhausted = s.fetchExhausted ∧ t.cycleCount = s.cycleCount

/-- The state is as before but for the run status and the fault record. -/
abbrev SameButFault (s t : State) : Prop :=
  RegsSame s t ∧ CellsSame s t ∧ t.sreg = s.sreg ∧ FlowSame s t ∧ ControlSame s t

/-- The state is as before but for `pc` and `pending_flush`. -/
abbrev SameButFlow (s t : State) : Prop :=
  RegsSame s t ∧ CellsSame s t ∧ t.sreg = s.sreg ∧ RunSame s t ∧ ControlSame s t

/-! ### Slots -/

/-- The slot's word is the one at its index in the program (R28 (c)). -/
abbrev SlotFetched (s : State) (slot : Slot) : Prop :=
  slot.fetchPc.toNat < s.programSize.val ∧ slot.raw = s.imemWord slot.fetchPc

/-- The slot's opcode and fields are those of its word (R28 (b)). -/
abbrev SlotDecoded (slot : Slot) : Prop :=
  slot.opcode = opcodeOf slot.raw ∧ slot.field1 = field1Of slot.raw ∧ slot.field2 = field2Of slot.raw

/-- The slot's snapshots are the registers as they stand in `s` (R144). -/
abbrev SlotSnapshots (s : State) (slot : Slot) : Prop :=
  slot.op1 = s.reg slot.field1 ∧
    slot.op2 = if isRFormat slot.opcode then s.reg slot.field2 else 0#8

/-- An opcode that cannot redirect or fault: the instruction only writes a register, flags or memory. -/
abbrev PlainOpcode (op : Opcode) : Prop := op ≠ 4#4 ∧ op ≠ 7#4 ∧ op < 12#4

/-- What step 1 leaves: `s` itself with an empty Execute slot, else what the execute unit answers (R141). -/
abbrev CommitsTo (s t : State) : Prop :=
  s.executeSlot.valid = false ∧ t = s ∨
    s.executeSlot.valid = true ∧ exec s.executeSlot.instr s = .next t

/-! ### The invariant between cycles -/

/-- What holds at every instant between cycles. -/
structure State.Inv (s : State) : Prop where
  /-- Data memory has its canonical form. -/
  memory : s.dmem.wf = true
  /-- `pc <= program_size` (R36). -/
  pcInProgram : s.pc.toNat ≤ s.programSize.val
  /-- `pending_flush = 0` (R158). -/
  noFlushPending : s.pendingFlush = false
  /-- A valid Fetch slot holds the word at its index (R28 (c)). -/
  fetchFetched : s.fetchSlot.valid = true → SlotFetched s s.fetchSlot
  /-- So does a valid Decode slot. -/
  decodeFetched : s.decodeSlot.valid = true → SlotFetched s s.decodeSlot
  /-- A valid Decode slot is decoded (R28 (b)). -/
  decodeDecoded : s.decodeSlot.valid = true → SlotDecoded s.decodeSlot
  /-- Its snapshots are the registers as they now stand (R145). -/
  decodeSnapshots : s.decodeSlot.valid = true → SlotSnapshots s s.decodeSlot
  /-- A valid Execute slot holds the word at its index. -/
  executeFetched : s.executeSlot.valid = true → SlotFetched s s.executeSlot
  /-- A valid Execute slot is decoded (R28 (b)). -/
  executeDecoded : s.executeSlot.valid = true → SlotDecoded s.executeSlot
  /-- Its second snapshot is 0 unless the opcode is R-format (R77). -/
  executeOp2 : s.executeSlot.valid = true → isRFormat s.executeSlot.opcode = false → s.executeSlot.op2 = 0#8
  /-- A Running machine has something left to do (R148). -/
  runningNotDrained : s.status = .running → drained s = false
  /-- A Halted machine is drained (R148). -/
  haltedDrained : s.status = .halted → drained s = true
  /-- There is a fault record exactly when Faulted (R34). -/
  faultRecorded : s.status = .faulted ↔ s.fault.isSome = true
  /-- The recorded instruction is the one still in the Execute slot (R183). -/
  faultInExecute : ∀ r, s.fault = some r → s.executeSlot.valid = true ∧ r.fetchPc = s.executeSlot.fetchPc
  /-- The cycle counter started at 1 (R31). -/
  counted : 1 ≤ s.cycleCount

/-! ### What later steps can depend on -/

/-- A decoded slot without the fields that no rule reads: an invalid slot is a bubble whatever else it holds
(R28 (d), decision D14). -/
def Slot.meaning (slot : Slot) : Slot := if slot.valid then slot else Slot.empty

/-- A Fetch slot without the fields that no rule reads: its decoded fields are not yet meaningful (R28 (c)). -/
def Slot.fetchedMeaning (slot : Slot) : Slot :=
  if slot.valid then { Slot.empty with valid := true, raw := slot.raw, fetchPc := slot.fetchPc } else Slot.empty

/-- A state without the slot fields that no rule reads. -/
def State.meaning (s : State) : State :=
  { s with
    fetchSlot := s.fetchSlot.fetchedMeaning
    decodeSlot := s.decodeSlot.meaning
    executeSlot := s.executeSlot.meaning }

end Sys2Proof.Machine
end

