-- ==== Sys2Proof/Certificates/Slice0/Obligations.lean ====
section
/-! DEFINITION. The statements for the provers, from the numbered rules of spec/. `a` and `b` stand for the operand
snapshots `E.op1` and `E.op2` of the Execute slot (R100). Each statement on an instruction writes the instruction's
word as its rule does; that the parts stand at these bits is the spec's own decision D1 (log entry 1). -/

open Sys2Proof Sys2Proof.Machine

/-! ### Encoding -/

/-- A few words written out from the spec's encoding (R61, R63; 95_test_vectors.md V-ENC). A sanity statement: the
bit positions are the spec's decision D1 (log entry 1). -/
def Obligations.WordsOfTheTableDecode : Prop :=
  decode 0b0000000001000010#16 = .add 1#6 2#6 ∧
  decode 0b0011000001111111#16 = .movi 1#6 63#6 ∧
  decode 0b0100000011111001#16 = .beqz 3#6 57#6 ∧
  decode 0b0111001010001011#16 = .br 10#6 11#6 ∧
  decode 0b1010000101111111#16 = .ldr 5#6 63#6 ∧
  decode 0b1011111111111111#16 = .str 63#6 63#6 ∧
  decode 0b1100000001000001#16 = .reserved12 1#6 1#6

/-- Decoding and encoding are inverse on every instruction and on every word, and a word is the number
`opcode * 4096 + field1 * 64 + field2`, whatever its fields. -/
def Obligations.DecodeAndEncodeAreInverse : Prop :=
  (∀ i : Instr, decode (encode i) = i) ∧
  (∀ w : Word, encode (decode w) = w) ∧
  (∀ w : Word, w.toNat = (opcodeOf w).toNat * 4096 + (field1Of w).toNat * 64 + (field2Of w).toNat) ∧
  (∀ (op : Opcode) (f1 f2 : Field), decode (packFields op f1 f2) = Instr.ofFields op f1 f2)

/-! ### Register-format ALU instructions -/

/-- R101, whole: encoding, sum, all five flags, and everything else unchanged. -/
def Obligations.AddWritesSumAndFiveFlags : Prop :=
  ∀ (d r : RegIdx) (s : State) (a b : Byte), a = s.executeSlot.op1 → b = s.executeSlot.op2 →
    decode (0x0000#16 ||| (d.setWidth 16 <<< 6) ||| r.setWidth 16) = .add d r ∧
    ∃ t, exec (.add d r) s = .next t ∧
      (t.reg d).toNat = (a.toNat + b.toNat) % 256 ∧
      (t.sreg.c = true ↔ 255 < a.toNat + b.toNat) ∧
      (t.sreg.v = true ↔ a.getLsbD 7 = b.getLsbD 7 ∧ (t.reg d).getLsbD 7 ≠ a.getLsbD 7) ∧
      (t.sreg.n = true ↔ 128 ≤ (t.reg d).toNat) ∧
      (t.sreg.z = true ↔ t.reg d = 0#8) ∧
      (t.sreg.s = true ↔ t.sreg.n ≠ t.sreg.v) ∧
      RegsSameBut d s t ∧ CellsSame s t ∧ FlowSame s t ∧ RunSame s t ∧ ControlSame s t

/-- R102, whole: C is unchanged. -/
def Obligations.SubWritesDifferenceAndFourFlags : Prop :=
  ∀ (d r : RegIdx) (s : State) (a b : Byte), a = s.executeSlot.op1 → b = s.executeSlot.op2 →
    decode (0x1000#16 ||| (d.setWidth 16 <<< 6) ||| r.setWidth 16) = .sub d r ∧
    ∃ t, exec (.sub d r) s = .next t ∧
      (t.reg d).toNat = (a.toNat + 256 - b.toNat) % 256 ∧
      t.sreg.c = s.sreg.c ∧
      (t.sreg.v = true ↔ a.getLsbD 7 ≠ b.getLsbD 7 ∧ (t.reg d).getLsbD 7 ≠ a.getLsbD 7) ∧
      (t.sreg.n = true ↔ 128 ≤ (t.reg d).toNat) ∧
      (t.sreg.z = true ↔ t.reg d = 0#8) ∧
      (t.sreg.s = true ↔ t.sreg.n ≠ t.sreg.v) ∧
      RegsSameBut d s t ∧ CellsSame s t ∧ FlowSame s t ∧ RunSame s t ∧ ControlSame s t

/-- R103, whole: the low 8 bits of the product; C, V and S are unchanged. -/
def Obligations.MulWritesLowProductAndNZ : Prop :=
  ∀ (d r : RegIdx) (s : State) (a b : Byte), a = s.executeSlot.op1 → b = s.executeSlot.op2 →
    decode (0x2000#16 ||| (d.setWidth 16 <<< 6) ||| r.setWidth 16) = .mul d r ∧
    ∃ t, exec (.mul d r) s = .next t ∧
      (t.reg d).toNat = (a.toNat * b.toNat) % 256 ∧
      t.sreg.c = s.sreg.c ∧ t.sreg.v = s.sreg.v ∧ t.sreg.s = s.sreg.s ∧
      (t.sreg.n = true ↔ 128 ≤ (t.reg d).toNat) ∧
      (t.sreg.z = true ↔ t.reg d = 0#8) ∧
      RegsSameBut d s t ∧ CellsSame s t ∧ FlowSame s t ∧ RunSame s t ∧ ControlSame s t

/-- R104, whole: bitwise exclusive or; C, V and S are unchanged. -/
def Obligations.EorWritesExclusiveOrAndNZ : Prop :=
  ∀ (d r : RegIdx) (s : State) (a b : Byte), a = s.executeSlot.op1 → b = s.executeSlot.op2 →
    decode (0x6000#16 ||| (d.setWidth 16 <<< 6) ||| r.setWidth 16) = .eor d r ∧
    ∃ t, exec (.eor d r) s = .next t ∧
      (∀ k, (t.reg d).getLsbD k = (a.getLsbD k != b.getLsbD k)) ∧
      t.sreg.c = s.sreg.c ∧ t.sreg.v = s.sreg.v ∧ t.sreg.s = s.sreg.s ∧
      (t.sreg.n = true ↔ 128 ≤ (t.reg d).toNat) ∧
      (t.sreg.z = true ↔ a = b) ∧
      RegsSameBut d s t ∧ CellsSame s t ∧ FlowSame s t ∧ RunSame s t ∧ ControlSame s t

/-- The V that ADD and SUB assign says exactly that the signed result lies outside -128 to 127, and then their S is
the sign of the exact signed result (derived from R17). -/
def Obligations.AddSubOverflowIsSignedOverflow : Prop :=
  ∀ (d r : RegIdx) (s t : State) (x y : Int), x = s.executeSlot.op1.toInt → y = s.executeSlot.op2.toInt →
    (exec (.add d r) s = .next t →
      (t.sreg.v = true ↔ x + y < -128 ∨ 127 < x + y) ∧ (t.sreg.s = true ↔ x + y < 0)) ∧
    (exec (.sub d r) s = .next t →
      (t.sreg.v = true ↔ x - y < -128 ∨ 127 < x - y) ∧ (t.sreg.s = true ↔ x - y < 0))

/-! ### Immediate-format ALU instructions -/

/-- R110, whole: the signed immediate; no flag. -/
def Obligations.MoviWritesSignedImmediate : Prop :=
  ∀ (d : RegIdx) (imm : Field) (s : State),
    decode (0x3000#16 ||| (d.setWidth 16 <<< 6) ||| imm.setWidth 16) = .movi d imm ∧
    ∃ t, exec (.movi d imm) s = .next t ∧
      (t.reg d).toInt = (if imm.toNat < 32 then (imm.toNat : Int) else imm.toNat - 64) ∧
      t.sreg = s.sreg ∧
      RegsSameBut d s t ∧ CellsSame s t ∧ FlowSame s t ∧ RunSame s t ∧ ControlSame s t

/-- R111, whole: bits 7 to 5 of the mask are bit 5 of the field; C, V and S are unchanged. -/
def Obligations.AndiMasksWithSignedImmediate : Prop :=
  ∀ (d : RegIdx) (imm : Field) (s : State) (a : Byte), a = s.executeSlot.op1 →
    decode (0x5000#16 ||| (d.setWidth 16 <<< 6) ||| imm.setWidth 16) = .andi d imm ∧
    ∃ t, exec (.andi d imm) s = .next t ∧
      (∀ k, k < 8 → (t.reg d).getLsbD k = (a.getLsbD k && imm.getLsbD (min k 5))) ∧
      t.sreg.c = s.sreg.c ∧ t.sreg.v = s.sreg.v ∧ t.sreg.s = s.sreg.s ∧
      (t.sreg.n = true ↔ 128 ≤ (t.reg d).toNat) ∧
      (t.sreg.z = true ↔ t.reg d = 0#8) ∧
      RegsSameBut d s t ∧ CellsSame s t ∧ FlowSame s t ∧ RunSame s t ∧ ControlSame s t

/-- R112, whole: the shift amount is the signed immediate masked with 7; C, V and S are unchanged. -/
def Obligations.SalShiftsLeftByMaskedImmediate : Prop :=
  ∀ (d : RegIdx) (imm : Field) (s : State) (a : Byte) (sh : Nat), a = s.executeSlot.op1 →
    sh = (imm.signExtend 8 &&& 7#8).toNat →
    decode (0x8000#16 ||| (d.setWidth 16 <<< 6) ||| imm.setWidth 16) = .sal d imm ∧
    ∃ t, exec (.sal d imm) s = .next t ∧
      (t.reg d).toNat = (a.toNat * 2 ^ sh) % 256 ∧
      t.sreg.c = s.sreg.c ∧ t.sreg.v = s.sreg.v ∧ t.sreg.s = s.sreg.s ∧
      (t.sreg.n = true ↔ 128 ≤ (t.reg d).toNat) ∧
      (t.sreg.z = true ↔ t.reg d = 0#8) ∧
      RegsSameBut d s t ∧ CellsSame s t ∧ FlowSame s t ∧ RunSame s t ∧ ControlSame s t

/-- R113, whole: the floor of the signed operand over 2^sh, which bit by bit copies bit 7 into the vacated bits; C, V
and S are unchanged. -/
def Obligations.SarShiftsRightReplicatingSign : Prop :=
  ∀ (d : RegIdx) (imm : Field) (s : State) (a : Byte) (sh : Nat), a = s.executeSlot.op1 →
    sh = (imm.signExtend 8 &&& 7#8).toNat →
    decode (0x9000#16 ||| (d.setWidth 16 <<< 6) ||| imm.setWidth 16) = .sar d imm ∧
    ∃ t, exec (.sar d imm) s = .next t ∧
      (t.reg d).toInt = a.toInt / 2 ^ sh ∧
      (∀ k, k < 8 → (t.reg d).getLsbD k = if k + sh < 8 then a.getLsbD (k + sh) else a.getLsbD 7) ∧
      t.sreg.c = s.sreg.c ∧ t.sreg.v = s.sreg.v ∧ t.sreg.s = s.sreg.s ∧
      (t.sreg.n = true ↔ 128 ≤ (t.reg d).toNat) ∧
      (t.sreg.z = true ↔ t.reg d = 0#8) ∧
      RegsSameBut d s t ∧ CellsSame s t ∧ FlowSame s t ∧ RunSame s t ∧ ControlSame s t

/-! ### Branches -/

/-- R120, a BEQZ that is not taken: nothing changes, whatever its immediate. -/
def Obligations.BeqzOfNonzeroChangesNothing : Prop :=
  ∀ (d : RegIdx) (imm : Field) (s : State), s.executeSlot.op1 ≠ 0#8 →
    decode (0x4000#16 ||| (d.setWidth 16 <<< 6) ||| imm.setWidth 16) = .beqz d imm ∧
    exec (.beqz d imm) s = .next s

/-- R120 and R122, a taken BEQZ whose target is in the program. The target is computed modulo 2^16 (decision D8). -/
def Obligations.BeqzOfZeroRedirects : Prop :=
  ∀ (d : RegIdx) (imm : Field) (s : State) (target : Word), s.executeSlot.op1 = 0#8 →
    (target.toNat : Int) = (s.executeSlot.fetchPc.toNat + 1 + imm.toInt) % 65536 →
    target.toNat < s.programSize.val →
    ∃ t, exec (.beqz d imm) s = .next t ∧ t.pc = target ∧ t.pendingFlush = true ∧ SameButFlow s t

/-- R181 for BEQZ: a taken BEQZ whose target is outside the program faults. A negative sum wraps and so faults
(decision D8, log entry 7). -/
def Obligations.BeqzOfZeroOutOfRangeFaults : Prop :=
  ∀ (d : RegIdx) (imm : Field) (s : State) (target : Word), s.executeSlot.op1 = 0#8 →
    (target.toNat : Int) = (s.executeSlot.fetchPc.toNat + 1 + imm.toInt) % 65536 →
    s.programSize.val ≤ target.toNat →
    ∃ t, exec (.beqz d imm) s = .next t ∧ t.status = .faulted ∧
      t.fault = some (.branchTargetOutOfRange s.executeSlot.fetchPc target) ∧ SameButFault s t

/-- R121, whole: BR to `op1 * 256 + op2`, the fault when that is outside the program, and nothing else written. -/
def Obligations.BrJumpsToTheTwoSnapshots : Prop :=
  ∀ (hi lo : RegIdx) (s : State) (target : Word),
    target.toNat = s.executeSlot.op1.toNat * 256 + s.executeSlot.op2.toNat →
    decode (0x7000#16 ||| (hi.setWidth 16 <<< 6) ||| lo.setWidth 16) = .br hi lo ∧
    (target.toNat < s.programSize.val →
      ∃ t, exec (.br hi lo) s = .next t ∧ t.pc = target ∧ t.pendingFlush = true ∧ SameButFlow s t) ∧
    (s.programSize.val ≤ target.toNat →
      ∃ t, exec (.br hi lo) s = .next t ∧ t.status = .faulted ∧
        t.fault = some (.branchTargetOutOfRange s.executeSlot.fetchPc target) ∧ SameButFault s t)

/-! ### Load and store -/

/-- R130, whole: the 8-bit cell at the unsigned address; no flag, no memory written. -/
def Obligations.LdrReadsTheCell : Prop :=
  ∀ (d : RegIdx) (addr : Field) (s : State),
    decode (0xA000#16 ||| (d.setWidth 16 <<< 6) ||| addr.setWidth 16) = .ldr d addr ∧
    ∃ t, exec (.ldr d addr) s = .next t ∧ t.reg d = s.cell addr.toNat ∧ t.sreg = s.sreg ∧
      RegsSameBut d s t ∧ CellsSame s t ∧ FlowSame s t ∧ RunSame s t ∧ ControlSame s t

/-- R131, whole: the snapshot is stored at the unsigned address, and no other cell changes. -/
def Obligations.StrWritesTheSnapshot : Prop :=
  ∀ (d : RegIdx) (addr : Field) (s : State),
    decode (0xB000#16 ||| (d.setWidth 16 <<< 6) ||| addr.setWidth 16) = .str d addr ∧
    ∃ t, exec (.str d addr) s = .next t ∧ t.cell addr.toNat = s.executeSlot.op1 ∧ t.sreg = s.sreg ∧
      CellsSameBut addr.toNat s t ∧ RegsSame s t ∧ FlowSame s t ∧ RunSame s t ∧ ControlSame s t

/-- A STR followed at distance 1 by an LDR of the same cell loads the stored byte (R206). -/
def Obligations.LoadSeesTheStoreBeforeIt : Prop :=
  ∀ (s : State) (d e : RegIdx) (addr : Field), s.status = .running →
    s.executeSlot.valid = true → s.executeSlot.instr = .str d addr →
    s.decodeSlot.valid = true → s.decodeSlot.instr = .ldr e addr →
    ∃ t, core.run 2 s = .next t ∧ t.reg e = s.executeSlot.op1

/-! ### Faults -/

/-- R182: words of opcode 12 to 15 decode to reserved instructions, get a second snapshot of 0, fault at Commit, and
are harmless when squashed. That they fault is the spec's decision D7 (log entry 7). -/
def Obligations.ReservedOpcodesFaultAtCommit : Prop :=
  (∀ (f1 f2 : Field) (s : State) (i : Instr),
    i = .reserved12 f1 f2 ∨ i = .reserved13 f1 f2 ∨ i = .reserved14 f1 f2 ∨ i = .reserved15 f1 f2 →
    12#4 ≤ opcodeOf (encode i) ∧
    ∃ t, exec i s = .next t ∧ t.status = .faulted ∧
      t.fault = some (.reservedOpcode s.executeSlot.fetchPc s.executeSlot.raw) ∧ SameButFault s t) ∧
  (∀ (slot : Slot) (s : State), slot.valid = true → 12#4 ≤ opcodeOf slot.raw → (slot.decoded s).op2 = 0#8) ∧
  (∀ (s t : State), s.executeSlot.valid = false → step s = .next t → t.status ≠ .faulted ∨ s.status = .faulted)

/-- R183 (decisions D9 and D23, log entry 7): when the instruction in Execute raises a fault, the step changes nothing
but status and record, and no later step changes anything. -/
def Obligations.FaultStopsTheMachineAtOnce : Prop :=
  ∀ (s t : State), s.status = .running → s.executeSlot.valid = true →
    exec s.executeSlot.instr s = .next t → t.status = .faulted →
    SameButFault s t ∧ t.fault.isSome = true ∧ step s = .next t ∧ ∀ n, core.run n t = .next t

/-- R180: a running machine faults only on a branch in Execute that is taken to a target outside the program, or on a
reserved opcode in Execute. -/
def Obligations.OnlyTwoConditionsFault : Prop :=
  ∀ (s t : State), s.status = .running → step s = .next t → t.status = .faulted →
    s.executeSlot.valid = true ∧
    ((∃ target : Word, s.programSize.val ≤ target.toNat ∧
        t.fault = some (.branchTargetOutOfRange s.executeSlot.fetchPc target) ∧
        (s.executeSlot.opcode = 4#4 ∧ s.executeSlot.op1 = 0#8 ∧
            (target.toNat : Int) = (s.executeSlot.fetchPc.toNat + 1 + s.executeSlot.field2.toInt) % 65536 ∨
          s.executeSlot.opcode = 7#4 ∧
            target.toNat = s.executeSlot.op1.toNat * 256 + s.executeSlot.op2.toNat)) ∨
      12#4 ≤ s.executeSlot.opcode ∧
        t.fault = some (.reservedOpcode s.executeSlot.fetchPc s.executeSlot.raw))

/-- Halted and Faulted are absorbing, and no step ever stops without a next state (R1, R33, R195). -/
def Obligations.StepsAlwaysAnswerAndFinalStatesAbsorb : Prop :=
  (∀ s : State, ∃ t, step s = .next t) ∧
  (∀ (s : State) (n : Nat), s.status ≠ .running → core.run n s = .next s)

/-! ### The cycle -/

/-- A step runs the decoded instruction: with a decoded word in Execute, a step of a Running machine is `exec` of what
the word decodes to, followed by steps 2 to 6 and the counter (`finishCycle`), which a fault leaves out (R141, R149,
R183). -/
def Obligations.StepRunsTheDecodedInstruction : Prop :=
  ∀ (i : Instr) (s : State), s.status = .running → s.executeSlot.valid = true →
    SlotDecoded s.executeSlot → decode s.executeSlot.raw = i →
    (∀ t, exec i s = .next t → t.status ≠ .faulted → step s = .next (finishCycle t)) ∧
    (∀ t, exec i s = .next t → t.status = .faulted → step s = .next t)

/-- The word at `pc` runs: it is fetched in the next cycle, decoded in the one after, moved to Execute in the third,
and the step after that runs the instruction it decodes to, if none of the instructions in the three slots branches or
faults before (R142, R146, R151). -/
def Obligations.WordAtPcRunsInTheFourthStep : Prop :=
  ∀ (s : State) (i : Instr), s.Inv → s.status = .running → s.fetchExhausted = false →
    s.pc.toNat < s.programSize.val →
    (s.executeSlot.valid = true → PlainOpcode s.executeSlot.opcode) →
    (s.decodeSlot.valid = true → PlainOpcode s.decodeSlot.opcode) →
    (s.fetchSlot.valid = true → PlainOpcode (opcodeOf s.fetchSlot.raw)) →
    i = decode (s.imemWord s.pc) →
    ∃ t, core.run 3 s = .next t ∧ t.status = .running ∧ t.executeSlot.valid = true ∧
      t.executeSlot.fetchPc = s.pc ∧ t.executeSlot.raw = s.imemWord s.pc ∧
      (∀ u, exec i t = .next u → step t = .next (afterCommit u))

/-- R149, whole: the cycle as a function of the state between cycles. `u` is the state after step 1. -/
def Obligations.CycleIsTheSixStepsInOrder : Prop :=
  ∀ (s u : State) (more : Bool), s.status = .running → CommitsTo s u →
    (more = true ↔ u.pc.toNat < s.programSize.val ∧ s.fetchExhausted = false) →
    (u.status = .faulted → step s = .next u) ∧
    (u.status ≠ .faulted → ∃ t, step s = .next t ∧
      t.executeSlot = s.decodeSlot ∧
      t.decodeSlot.valid = (s.fetchSlot.valid && !u.pendingFlush) ∧
      (s.fetchSlot.valid = true →
        t.decodeSlot.raw = s.fetchSlot.raw ∧ t.decodeSlot.fetchPc = s.fetchSlot.fetchPc ∧
        SlotDecoded t.decodeSlot ∧ SlotSnapshots u t.decodeSlot) ∧
      t.fetchSlot.valid = (more && !u.pendingFlush) ∧
      (more = true → t.fetchSlot.raw = s.imemWord u.pc ∧ t.fetchSlot.fetchPc = u.pc) ∧
      t.pc = (if more then u.pc + 1#16 else u.pc) ∧
      t.fetchExhausted = (s.fetchExhausted || (!more && decide (s.programSize.val ≤ u.pc.toNat))) ∧
      t.pendingFlush = false ∧
      RegsSame u t ∧ t.sreg = u.sreg ∧ CellsSame u t ∧
      (t.status = .halted ↔ t.fetchExhausted = true ∧ t.fetchSlot.valid = false ∧
        t.decodeSlot.valid = false ∧ t.executeSlot.valid = false) ∧
      (t.status = .halted ∨ t.status = .running) ∧
      t.cycleCount = s.cycleCount + 1 ∧ t.imem = s.imem ∧ t.programSize = s.programSize ∧ t.fault = s.fault)

/-- The operand that the next instruction to commit will use is the register as it stood BEFORE this cycle's commit,
and the operand of the one after it is the register as it stands after it (R203, R204, R145). -/
def Obligations.DistanceOneReadsOldDistanceTwoReadsNew : Prop :=
  ∀ (s t : State), s.Inv → s.status = .running → step s = .next t → t.status ≠ .faulted →
    (t.executeSlot.valid = true → t.executeSlot.op1 = s.reg t.executeSlot.field1 ∧
      (isRFormat t.executeSlot.opcode = true → t.executeSlot.op2 = s.reg t.executeSlot.field2)) ∧
    (t.decodeSlot.valid = true → t.decodeSlot.op1 = t.reg t.decodeSlot.field1 ∧
      (isRFormat t.decodeSlot.opcode = true → t.decodeSlot.op2 = t.reg t.decodeSlot.field2))

/-- R11, whole: a general register changes only in a cycle that commits an instruction, only at `E.field1`, and only
for the nine opcodes that write one. -/
def Obligations.RegistersChangeOnlyAtTheDestination : Prop :=
  ∀ (s t : State) (i : RegIdx), step s = .next t → t.reg i ≠ s.reg i →
    s.status = .running ∧ s.executeSlot.valid = true ∧ i = s.executeSlot.field1 ∧
    (s.executeSlot.opcode = 0#4 ∨ s.executeSlot.opcode = 1#4 ∨ s.executeSlot.opcode = 2#4 ∨
      s.executeSlot.opcode = 3#4 ∨ s.executeSlot.opcode = 5#4 ∨ s.executeSlot.opcode = 6#4 ∨
      s.executeSlot.opcode = 8#4 ∨ s.executeSlot.opcode = 9#4 ∨ s.executeSlot.opcode = 10#4)

/-- The columns of R20: C changes only for ADD, V and S only for ADD and SUB, N and Z only for the seven opcodes that
assign them; and S is N XOR V right after an ADD or a SUB commits (R19). -/
def Obligations.FlagsChangeOnlyForTheirOpcodes : Prop :=
  ∀ (s t : State) (op : Opcode), op = s.executeSlot.opcode → step s = .next t →
    (t.sreg.c ≠ s.sreg.c → s.executeSlot.valid = true ∧ op = 0#4) ∧
    (t.sreg.v ≠ s.sreg.v ∨ t.sreg.s ≠ s.sreg.s → s.executeSlot.valid = true ∧ (op = 0#4 ∨ op = 1#4)) ∧
    (t.sreg.n ≠ s.sreg.n ∨ t.sreg.z ≠ s.sreg.z → s.executeSlot.valid = true ∧
      (op = 0#4 ∨ op = 1#4 ∨ op = 2#4 ∨ op = 5#4 ∨ op = 6#4 ∨ op = 8#4 ∨ op = 9#4)) ∧
    (s.status = .running → s.executeSlot.valid = true → op = 0#4 ∨ op = 1#4 →
      t.sreg.s = (t.sreg.n ^^ t.sreg.v))

/-- Bits 7:5 of the status byte are 0 in every state (R18), whatever the flags; the order of the five flags below them
is not part of this statement. -/
def Obligations.StatusByteUpperBitsAreZero : Prop :=
  ∀ (s : State) (k : Nat), 5 ≤ k → s.sreg.toByte.getLsbD k = false

/-- R42: a data cell changes only when a STR commits, and only the cell its 6-bit field names; and what cells 64 and up
hold changes nothing but themselves and is kept for the whole run. -/
def Obligations.OnlyTheFirst64CellsAreReached : Prop :=
  (∀ (s t : State) (a : Nat), step s = .next t → t.cell a ≠ s.cell a →
    s.status = .running ∧ s.executeSlot.valid = true ∧ s.executeSlot.opcode = 11#4 ∧
    a = s.executeSlot.field2.toNat ∧ a < 64) ∧
  (∀ (s t : State) (m : Memory), (∀ a, a < 64 → m.read a = s.cell a) → step s = .next t →
    ∃ t', step (s.setDmem m) = .next t' ∧ t'.setDmem t.dmem = t ∧
      (∀ a, a < 64 → t'.cell a = t.cell a) ∧ (∀ a, 64 ≤ a → t'.cell a = m.read a)) ∧
  (∀ (s t : State) (n a : Nat), core.run n s = .next t → 64 ≤ a → t.cell a = s.cell a)

/-- No run changes the program or its size (R24, R25, R52). -/
def Obligations.ProgramIsImmutable : Prop :=
  ∀ (s t : State) (n : Nat), core.run n s = .next t → t.imem = s.imem ∧ t.programSize = s.programSize

/-- R15: `pc` changes only by a fetch, by one, or by a taken branch of BEQZ or BR to a target inside the program, after
which the same cycle may fetch at the target. -/
def Obligations.PcMovesOnlyByFetchOrBranch : Prop :=
  ∀ (s t : State), step s = .next t → t.pc ≠ s.pc →
    s.status = .running ∧
    (t.pc = s.pc + 1#16 ∧ t.fetchSlot.fetchPc = s.pc ∧ s.pc.toNat < s.programSize.val ∧
        s.fetchExhausted = false ∨
      ∃ target : Word, target.toNat < s.programSize.val ∧ s.executeSlot.valid = true ∧
        (s.executeSlot.opcode = 4#4 ∧ s.executeSlot.op1 = 0#8 ∨ s.executeSlot.opcode = 7#4) ∧
        (t.pc = target ∧ s.fetchExhausted = true ∨
          t.pc = target + 1#16 ∧ t.fetchSlot.fetchPc = target ∧ s.fetchExhausted = false))

/-- Fetch exhaustion is for good, and every performed cycle counts exactly once (R30, R31, R150, R191). -/
def Obligations.ExhaustionIsStickyAndCyclesCount : Prop :=
  ∀ (s t : State), step s = .next t →
    (s.fetchExhausted = true → t.fetchExhausted = true) ∧
    (s.status = .running → t.status ≠ .faulted → s.fetchExhausted = true → t.fetchSlot.valid = false) ∧
    (s.status = .running → t.status ≠ .faulted → t.cycleCount = s.cycleCount + 1) ∧
    (s.status ≠ .running ∨ t.status = .faulted → t.cycleCount = s.cycleCount)

/-- The branch shadow (R152, R209): a branch taken to `target` while fetch is not exhausted, with plain words
after it. The next word commits, the one after it and the word at the target do not, and after two cycles without a
commit the word at `target + 1` stands in Execute. -/
def Obligations.TakenBranchResumesOnePastItsTarget : Prop :=
  ∀ (s : State) (target : Word), s.Inv → s.status = .running → s.fetchExhausted = false →
    s.executeSlot.valid = true → exec s.executeSlot.instr s = .next (s.redirect target) →
    s.decodeSlot.valid = true → PlainOpcode s.decodeSlot.opcode → s.fetchSlot.valid = true →
    target.toNat + 1 < s.programSize.val →
    ∃ t₁ t₂ t₃ t₄ : State,
      step s = .next t₁ ∧ step t₁ = .next t₂ ∧ step t₂ = .next t₃ ∧ step t₃ = .next t₄ ∧
      t₁.executeSlot = s.decodeSlot ∧ t₁.decodeSlot.valid = false ∧ t₁.fetchSlot.valid = false ∧
      t₁.pc = target + 1#16 ∧ RegsSame s t₁ ∧ CellsSame s t₁ ∧ t₁.sreg = s.sreg ∧
      t₂.executeSlot.valid = false ∧ t₃.executeSlot.valid = false ∧
      (∃ u, exec s.decodeSlot.instr t₁ = .next u ∧
        t₂.regs = u.regs ∧ t₂.sreg = u.sreg ∧ t₂.dmem = u.dmem ∧
        t₄.regs = u.regs ∧ t₄.sreg = u.sreg ∧ t₄.dmem = u.dmem) ∧
      t₄.executeSlot.valid = true ∧ t₄.executeSlot.fetchPc = target + 1#16 ∧
      t₄.executeSlot.raw = s.imemWord (target + 1#16)

/-- A branch that commits after fetch is exhausted redirects nothing (R153): the machine halts with `pc` at the
target. -/
def Obligations.LateBranchOnlyMovesPc : Prop :=
  ∀ (s : State) (target : Word), s.status = .running → s.fetchExhausted = true →
    s.executeSlot.valid = true → exec s.executeSlot.instr s = .next (s.redirect target) →
    (s.decodeSlot.valid = true → PlainOpcode s.decodeSlot.opcode) →
    ∃ t, core.run 2 s = .next t ∧ t.status = .halted ∧ t.pc = target

/-- An exhausted machine is Halted or Faulted after at most three cycles (R148, R153). -/
def Obligations.ExhaustedMachineStopsWithinThreeCycles : Prop :=
  ∀ (s : State), s.fetchExhausted = true → ∃ t, core.run 3 s = .next t ∧ t.status ≠ .running

/-- Straight-line code drains on time (R151, R154): from any instant between cycles with fetch not exhausted, if no
word of the program is a branch or reserved and something is still to fetch or was just fetched, the machine runs for
exactly `program_size - pc + 3` cycles and halts with `pc = program_size`. For a program of `k` words after reset,
where `pc = 1`, that is `k + 2` cycles. -/
def Obligations.StraightLineCodeHaltsOnTime : Prop :=
  ∀ (s : State) (k : Nat), s.Inv → s.status = .running → s.fetchExhausted = false →
    (∀ w : Word, w.toNat < s.programSize.val → PlainOpcode (opcodeOf (s.imemWord w))) →
    (s.pc.toNat < s.programSize.val ∨ s.fetchSlot.valid = true) →
    k = s.programSize.val - s.pc.toNat + 3 →
    (∃ t, core.run k s = .next t ∧ t.status = .halted ∧ t.pc.toNat = s.programSize.val ∧
      t.cycleCount = s.cycleCount + k) ∧
    (∀ n, n < k → ∃ t, core.run n s = .next t ∧ t.status = .running)

/-! ### The invariant -/

/-- Every step keeps the invariant, from every state that has it. -/
def Obligations.EveryStepKeepsTheInvariant : Prop :=
  ∀ (s t : State), s.Inv → step s = .next t → t.Inv

/-- The invariant holds at reset. -/
def Obligations.ResetHasTheInvariant : Prop := State.reset.Inv

/-- The invariant holds after reset of any program with any canonical `DMEM_INIT`. -/
def Obligations.ResetOfAnyProgramHasTheInvariant : Prop :=
  ∀ (s : State) (m : Memory), m.wf = true → (resetMachine m s).Inv

/-! ### Reset and load -/

/-- The state after reset of any program in any status, prefetch included (R200, R201). The registers' zeros are the
source's; the other values are the spec's decisions D3 to D6 and D12 (log entries 3 to 6 and 8). -/
def Obligations.ResetLeavesTheTabulatedState : Prop :=
  ∀ (s t : State) (m : Memory), t = resetMachine m s →
    (∀ i, t.reg i = 0#8) ∧ t.sreg.toByte = 0#8 ∧ (∀ a, t.cell a = m.read a) ∧
    t.decodeSlot.valid = false ∧ t.executeSlot.valid = false ∧ t.pendingFlush = false ∧ t.cycleCount = 1 ∧
    t.fault = none ∧ t.imem = s.imem ∧ t.programSize = s.programSize ∧
    (1 ≤ s.programSize.val → t.pc = 1#16 ∧ t.fetchSlot.valid = true ∧ t.fetchSlot.raw = s.imemWord 0#16 ∧
      t.fetchSlot.fetchPc = 0#16 ∧ t.fetchExhausted = false ∧ t.status = .running) ∧
    (s.programSize.val = 0 → t.pc = 0#16 ∧ t.fetchSlot.valid = false ∧ t.fetchExhausted = true ∧
      t.status = .halted)

/-- `State.reset` is the reset of the empty program with `DMEM_INIT` all zero: every register and every cell reads 0,
and reset again leaves it as it is (R201, decisions D3 to D6 and D12). -/
def Obligations.ResetStateIsTheEmptyProgram : Prop :=
  (∀ i, State.reset.reg i = 0#8) ∧ (∀ a, State.reset.cell a = 0#8) ∧ State.reset.pc = 0#16 ∧
  State.reset.status = .halted ∧ State.reset.cycleCount = 1 ∧ resetMachine [] State.reset = State.reset

/-- Program load puts the words at consecutive indices from 0 and their number in `program_size`; more than 1024 words
are refused (R24, R25, R70; decision D16). -/
def Obligations.LoadPlacesTheProgram : Prop :=
  ∀ (words : List Word) (s : State),
    (words.length ≤ 1024 → ∃ t, loadProgram words s = .next t ∧ t.programSize.val = words.length ∧
      (∀ w : Word, w.toNat < words.length → some (t.imemWord w) = words[w.toNat]?) ∧
      RegsSame s t ∧ CellsSame s t ∧ t.pc = s.pc ∧ t.status = s.status) ∧
    (1024 < words.length → loadProgram words s = .refused (.programTooLong words.length))

/-- Every word the loader's encoding yields is one of the twelve instructions (R72), and an in-range signed immediate
comes back from the decoder as the number written (R71, R64). -/
def Obligations.AssembledWordsAreWellFormed : Prop :=
  (∀ (line : AsmLine) (w : Word), assembleLine line = .ok w → (decode w).wellFormed = true) ∧
  (∀ (d : Nat) (n : Int), d < 64 → -32 ≤ n → n ≤ 31 →
    ∃ w f, assembleLine ⟨"MOVI", [.reg d, .int n]⟩ = .ok w ∧ decode w = .movi (BitVec.ofNat 6 d) f ∧
      (imm8 f).toInt = n)

/-! ### What nothing depends on -/

/-- Words at and beyond `program_size` are never read (R24, R36; decision D24): replacing them changes nothing but
themselves. -/
def Obligations.WordsBeyondTheProgramAreNeverRead : Prop :=
  ∀ (s t : State) (m : Vector Word 1024),
    (∀ i, i < s.programSize.val → m[i]? = s.imem[i]?) → step s = .next t →
    step { s with imem := m } = .next { t with imem := m }

/-- No instruction reads a flag (R21): runs that differ only in the flags stay equal but for the flags. -/
def Obligations.FlagsAreNeverRead : Prop :=
  ∀ (s t : State) (f : Sreg) (n : Nat), core.run n s = .next t →
    ∃ g, core.run n (s.setSreg f) = .next (t.setSreg g)

/-- No rule reads the fields of an invalid slot, nor the decoded fields of the Fetch slot (R28, decision D14, log entry
6): runs from states equal but for those fields stay equal but for them. -/
def Obligations.InvalidSlotFieldsAreNeverRead : Prop :=
  ∀ (s s' t : State) (n : Nat), s.meaning = s'.meaning → core.run n s = .next t →
    ∃ t', core.run n s' = .next t' ∧ t'.meaning = t.meaning
end

