-- ==== Sys2Proof/Laws/Decode.lean ====
section
/-! SUPPORT. The fields of a word and the instruction they select. -/

namespace Sys2Proof

/-- Bit `i` of a word of three fields (R61). -/
theorem packFields_getLsbD (op : Opcode) (f1 f2 : Field) (i : Nat) : (packFields op f1 f2).getLsbD i =
    if i < 6 then f2.getLsbD i else if i < 12 then f1.getLsbD (i - 6) else op.getLsbD (i - 12) := by
  unfold packFields
  by_cases h6 : i < 6
  · have h16 : i < 16 := by omega
    have h12 : i < 12 := by omega
    simp [h6, h12, h16]
  · by_cases h12 : i < 12
    · have h16 : i < 16 := by omega
      have hf : f2.getLsbD i = false := BitVec.getLsbD_of_ge f2 i (by omega)
      simp [h6, h12, h16, hf]
    · have hf : f2.getLsbD i = false := BitVec.getLsbD_of_ge f2 i (by omega)
      have hg : f1.getLsbD (i - 6) = false := BitVec.getLsbD_of_ge f1 (i - 6) (by omega)
      by_cases h16 : i < 16
      · simp [h6, h12, h16, hf, hg]
      · have ho : op.getLsbD (i - 12) = false := BitVec.getLsbD_of_ge op (i - 12) (by omega)
        simp [h6, h12, h16, ho]

@[simp] theorem opcodeOf_packFields (op : Opcode) (f1 f2 : Field) : opcodeOf (packFields op f1 f2) = op := by
  apply BitVec.eq_of_getLsbD_eq
  intro i hi
  have h6 : ¬ 12 + i < 6 := by omega
  simp [opcodeOf, packFields_getLsbD, hi, h6]

@[simp] theorem field1Of_packFields (op : Opcode) (f1 f2 : Field) : field1Of (packFields op f1 f2) = f1 := by
  apply BitVec.eq_of_getLsbD_eq
  intro i hi
  have h12 : 6 + i < 12 := by omega
  simp [field1Of, packFields_getLsbD, hi, h12]

@[simp] theorem field2Of_packFields (op : Opcode) (f1 f2 : Field) : field2Of (packFields op f1 f2) = f2 := by
  apply BitVec.eq_of_getLsbD_eq
  intro i hi
  simp [field2Of, packFields_getLsbD, hi]

/-- A word is its three fields (R61). -/
theorem packFields_of_word (w : Word) : packFields (opcodeOf w) (field1Of w) (field2Of w) = w := by
  apply BitVec.eq_of_getLsbD_eq
  intro i hi
  rw [packFields_getLsbD]
  by_cases h6 : i < 6
  · simp [field2Of, h6]
  · by_cases h12 : i < 12
    · have h : i - 6 < 6 := by omega
      have e : 6 + (i - 6) = i := by omega
      simp [field1Of, h6, h12, h, e]
    · have h : i - 12 < 4 := by omega
      have e : 12 + (i - 12) = i := by omega
      simp [opcodeOf, h6, h12, h, e]

/-- What a word of three fields decodes to, in the fields it is made of (R63). -/
theorem decode_of_fields {w : Word} {op : Opcode} {f1 f2 : Field} (h : w = packFields op f1 f2) :
    decode w = Instr.ofFields op f1 f2 := by
  simp [h, decode]

/-- What a word decodes to when it is written as the instruction rules write it, `base | (d << 6) | r` with the opcode
in the top bits of `base`. -/
theorem decode_of_base {base : Word} (op : Opcode) (f1 f2 : Field) (h : base = op.setWidth 16 <<< 12) :
    decode (base ||| f1.setWidth 16 <<< 6 ||| f2.setWidth 16) = Instr.ofFields op f1 f2 := by
  subst h
  exact decode_of_fields (by unfold packFields; rfl)

end Sys2Proof
end

