-- ==== Sys2Proof/Laws/State.lean ====
section
/-! SUPPORT. One lemma per field per update of State, so that no later proof unfolds a record update. -/

namespace Sys2Proof.Machine

/-! ### A register written -/

@[simp] theorem writeReg_regs (s : State) (d : RegIdx) (v : Byte) : (s.writeReg d v).regs = s.regs.set d.toNat v d.isLt := rfl
@[simp] theorem writeReg_pc (s : State) (d : RegIdx) (v : Byte) : (s.writeReg d v).pc = s.pc := rfl
@[simp] theorem writeReg_sreg (s : State) (d : RegIdx) (v : Byte) : (s.writeReg d v).sreg = s.sreg := rfl
@[simp] theorem writeReg_dmem (s : State) (d : RegIdx) (v : Byte) : (s.writeReg d v).dmem = s.dmem := rfl
@[simp] theorem writeReg_imem (s : State) (d : RegIdx) (v : Byte) : (s.writeReg d v).imem = s.imem := rfl
@[simp] theorem writeReg_programSize (s : State) (d : RegIdx) (v : Byte) : (s.writeReg d v).programSize = s.programSize := rfl
@[simp] theorem writeReg_fetchSlot (s : State) (d : RegIdx) (v : Byte) : (s.writeReg d v).fetchSlot = s.fetchSlot := rfl
@[simp] theorem writeReg_decodeSlot (s : State) (d : RegIdx) (v : Byte) : (s.writeReg d v).decodeSlot = s.decodeSlot := rfl
@[simp] theorem writeReg_executeSlot (s : State) (d : RegIdx) (v : Byte) : (s.writeReg d v).executeSlot = s.executeSlot := rfl
@[simp] theorem writeReg_pendingFlush (s : State) (d : RegIdx) (v : Byte) : (s.writeReg d v).pendingFlush = s.pendingFlush := rfl
@[simp] theorem writeReg_fetchExhausted (s : State) (d : RegIdx) (v : Byte) : (s.writeReg d v).fetchExhausted = s.fetchExhausted := rfl
@[simp] theorem writeReg_cycleCount (s : State) (d : RegIdx) (v : Byte) : (s.writeReg d v).cycleCount = s.cycleCount := rfl
@[simp] theorem writeReg_status (s : State) (d : RegIdx) (v : Byte) : (s.writeReg d v).status = s.status := rfl
@[simp] theorem writeReg_fault (s : State) (d : RegIdx) (v : Byte) : (s.writeReg d v).fault = s.fault := rfl
@[simp] theorem writeReg_cell (s : State) (d : RegIdx) (v : Byte) (a : Nat) : (s.writeReg d v).cell a = s.cell a := rfl
@[simp] theorem writeReg_imemWord (s : State) (d : RegIdx) (v : Byte) (w : Word) : (s.writeReg d v).imemWord w = s.imemWord w := rfl

/-! ### The status register assigned -/

@[simp] theorem setSreg_regs (s : State) (f : Sreg) : (s.setSreg f).regs = s.regs := rfl
@[simp] theorem setSreg_pc (s : State) (f : Sreg) : (s.setSreg f).pc = s.pc := rfl
@[simp] theorem setSreg_sreg (s : State) (f : Sreg) : (s.setSreg f).sreg = f := rfl
@[simp] theorem setSreg_dmem (s : State) (f : Sreg) : (s.setSreg f).dmem = s.dmem := rfl
@[simp] theorem setSreg_imem (s : State) (f : Sreg) : (s.setSreg f).imem = s.imem := rfl
@[simp] theorem setSreg_programSize (s : State) (f : Sreg) : (s.setSreg f).programSize = s.programSize := rfl
@[simp] theorem setSreg_fetchSlot (s : State) (f : Sreg) : (s.setSreg f).fetchSlot = s.fetchSlot := rfl
@[simp] theorem setSreg_decodeSlot (s : State) (f : Sreg) : (s.setSreg f).decodeSlot = s.decodeSlot := rfl
@[simp] theorem setSreg_executeSlot (s : State) (f : Sreg) : (s.setSreg f).executeSlot = s.executeSlot := rfl
@[simp] theorem setSreg_pendingFlush (s : State) (f : Sreg) : (s.setSreg f).pendingFlush = s.pendingFlush := rfl
@[simp] theorem setSreg_fetchExhausted (s : State) (f : Sreg) : (s.setSreg f).fetchExhausted = s.fetchExhausted := rfl
@[simp] theorem setSreg_cycleCount (s : State) (f : Sreg) : (s.setSreg f).cycleCount = s.cycleCount := rfl
@[simp] theorem setSreg_status (s : State) (f : Sreg) : (s.setSreg f).status = s.status := rfl
@[simp] theorem setSreg_fault (s : State) (f : Sreg) : (s.setSreg f).fault = s.fault := rfl
@[simp] theorem setSreg_reg (s : State) (f : Sreg) (i : RegIdx) : (s.setSreg f).reg i = s.reg i := rfl
@[simp] theorem setSreg_cell (s : State) (f : Sreg) (a : Nat) : (s.setSreg f).cell a = s.cell a := rfl
@[simp] theorem setSreg_imemWord (s : State) (f : Sreg) (w : Word) : (s.setSreg f).imemWord w = s.imemWord w := rfl

/-! ### Data memory replaced -/

@[simp] theorem setDmem_regs (s : State) (m : Memory) : (s.setDmem m).regs = s.regs := rfl
@[simp] theorem setDmem_pc (s : State) (m : Memory) : (s.setDmem m).pc = s.pc := rfl
@[simp] theorem setDmem_sreg (s : State) (m : Memory) : (s.setDmem m).sreg = s.sreg := rfl
@[simp] theorem setDmem_dmem (s : State) (m : Memory) : (s.setDmem m).dmem = m := rfl
@[simp] theorem setDmem_imem (s : State) (m : Memory) : (s.setDmem m).imem = s.imem := rfl
@[simp] theorem setDmem_programSize (s : State) (m : Memory) : (s.setDmem m).programSize = s.programSize := rfl
@[simp] theorem setDmem_fetchSlot (s : State) (m : Memory) : (s.setDmem m).fetchSlot = s.fetchSlot := rfl
@[simp] theorem setDmem_decodeSlot (s : State) (m : Memory) : (s.setDmem m).decodeSlot = s.decodeSlot := rfl
@[simp] theorem setDmem_executeSlot (s : State) (m : Memory) : (s.setDmem m).executeSlot = s.executeSlot := rfl
@[simp] theorem setDmem_pendingFlush (s : State) (m : Memory) : (s.setDmem m).pendingFlush = s.pendingFlush := rfl
@[simp] theorem setDmem_fetchExhausted (s : State) (m : Memory) : (s.setDmem m).fetchExhausted = s.fetchExhausted := rfl
@[simp] theorem setDmem_cycleCount (s : State) (m : Memory) : (s.setDmem m).cycleCount = s.cycleCount := rfl
@[simp] theorem setDmem_status (s : State) (m : Memory) : (s.setDmem m).status = s.status := rfl
@[simp] theorem setDmem_fault (s : State) (m : Memory) : (s.setDmem m).fault = s.fault := rfl
@[simp] theorem setDmem_reg (s : State) (m : Memory) (i : RegIdx) : (s.setDmem m).reg i = s.reg i := rfl
@[simp] theorem setDmem_imemWord (s : State) (m : Memory) (w : Word) : (s.setDmem m).imemWord w = s.imemWord w := rfl

/-! ### A fault raised -/

@[simp] theorem raise_regs (s : State) (r : FaultRecord) : (s.raise r).regs = s.regs := rfl
@[simp] theorem raise_pc (s : State) (r : FaultRecord) : (s.raise r).pc = s.pc := rfl
@[simp] theorem raise_sreg (s : State) (r : FaultRecord) : (s.raise r).sreg = s.sreg := rfl
@[simp] theorem raise_dmem (s : State) (r : FaultRecord) : (s.raise r).dmem = s.dmem := rfl
@[simp] theorem raise_imem (s : State) (r : FaultRecord) : (s.raise r).imem = s.imem := rfl
@[simp] theorem raise_programSize (s : State) (r : FaultRecord) : (s.raise r).programSize = s.programSize := rfl
@[simp] theorem raise_fetchSlot (s : State) (r : FaultRecord) : (s.raise r).fetchSlot = s.fetchSlot := rfl
@[simp] theorem raise_decodeSlot (s : State) (r : FaultRecord) : (s.raise r).decodeSlot = s.decodeSlot := rfl
@[simp] theorem raise_executeSlot (s : State) (r : FaultRecord) : (s.raise r).executeSlot = s.executeSlot := rfl
@[simp] theorem raise_pendingFlush (s : State) (r : FaultRecord) : (s.raise r).pendingFlush = s.pendingFlush := rfl
@[simp] theorem raise_fetchExhausted (s : State) (r : FaultRecord) : (s.raise r).fetchExhausted = s.fetchExhausted := rfl
@[simp] theorem raise_cycleCount (s : State) (r : FaultRecord) : (s.raise r).cycleCount = s.cycleCount := rfl
@[simp] theorem raise_status (s : State) (r : FaultRecord) : (s.raise r).status = .faulted := rfl
@[simp] theorem raise_fault (s : State) (r : FaultRecord) : (s.raise r).fault = some r := rfl
@[simp] theorem raise_reg (s : State) (r : FaultRecord) (i : RegIdx) : (s.raise r).reg i = s.reg i := rfl
@[simp] theorem raise_cell (s : State) (r : FaultRecord) (a : Nat) : (s.raise r).cell a = s.cell a := rfl
@[simp] theorem raise_imemWord (s : State) (r : FaultRecord) (w : Word) : (s.raise r).imemWord w = s.imemWord w := rfl

/-! ### A branch taken -/

@[simp] theorem redirect_regs (s : State) (target : Word) : (s.redirect target).regs = s.regs := rfl
@[simp] theorem redirect_pc (s : State) (target : Word) : (s.redirect target).pc = target := rfl
@[simp] theorem redirect_sreg (s : State) (target : Word) : (s.redirect target).sreg = s.sreg := rfl
@[simp] theorem redirect_dmem (s : State) (target : Word) : (s.redirect target).dmem = s.dmem := rfl
@[simp] theorem redirect_imem (s : State) (target : Word) : (s.redirect target).imem = s.imem := rfl
@[simp] theorem redirect_programSize (s : State) (target : Word) : (s.redirect target).programSize = s.programSize := rfl
@[simp] theorem redirect_fetchSlot (s : State) (target : Word) : (s.redirect target).fetchSlot = s.fetchSlot := rfl
@[simp] theorem redirect_decodeSlot (s : State) (target : Word) : (s.redirect target).decodeSlot = s.decodeSlot := rfl
@[simp] theorem redirect_executeSlot (s : State) (target : Word) : (s.redirect target).executeSlot = s.executeSlot := rfl
@[simp] theorem redirect_pendingFlush (s : State) (target : Word) : (s.redirect target).pendingFlush = true := rfl
@[simp] theorem redirect_fetchExhausted (s : State) (target : Word) : (s.redirect target).fetchExhausted = s.fetchExhausted := rfl
@[simp] theorem redirect_cycleCount (s : State) (target : Word) : (s.redirect target).cycleCount = s.cycleCount := rfl
@[simp] theorem redirect_status (s : State) (target : Word) : (s.redirect target).status = s.status := rfl
@[simp] theorem redirect_fault (s : State) (target : Word) : (s.redirect target).fault = s.fault := rfl
@[simp] theorem redirect_reg (s : State) (target : Word) (i : RegIdx) : (s.redirect target).reg i = s.reg i := rfl
@[simp] theorem redirect_cell (s : State) (target : Word) (a : Nat) : (s.redirect target).cell a = s.cell a := rfl
@[simp] theorem redirect_imemWord (s : State) (target : Word) (w : Word) : (s.redirect target).imemWord w = s.imemWord w := rfl

/-! ### Step 2, Advance -/

@[simp] theorem advance_regs (s : State) : (advance s).regs = s.regs := rfl
@[simp] theorem advance_pc (s : State) : (advance s).pc = s.pc := rfl
@[simp] theorem advance_sreg (s : State) : (advance s).sreg = s.sreg := rfl
@[simp] theorem advance_dmem (s : State) : (advance s).dmem = s.dmem := rfl
@[simp] theorem advance_imem (s : State) : (advance s).imem = s.imem := rfl
@[simp] theorem advance_programSize (s : State) : (advance s).programSize = s.programSize := rfl
@[simp] theorem advance_fetchSlot (s : State) : (advance s).fetchSlot = s.fetchSlot := rfl
@[simp] theorem advance_decodeSlot (s : State) : (advance s).decodeSlot = s.fetchSlot := rfl
@[simp] theorem advance_executeSlot (s : State) : (advance s).executeSlot = s.decodeSlot := rfl
@[simp] theorem advance_pendingFlush (s : State) : (advance s).pendingFlush = s.pendingFlush := rfl
@[simp] theorem advance_fetchExhausted (s : State) : (advance s).fetchExhausted = s.fetchExhausted := rfl
@[simp] theorem advance_cycleCount (s : State) : (advance s).cycleCount = s.cycleCount := rfl
@[simp] theorem advance_status (s : State) : (advance s).status = s.status := rfl
@[simp] theorem advance_fault (s : State) : (advance s).fault = s.fault := rfl
@[simp] theorem advance_reg (s : State) (i : RegIdx) : (advance s).reg i = s.reg i := rfl
@[simp] theorem advance_cell (s : State) (a : Nat) : (advance s).cell a = s.cell a := rfl
@[simp] theorem advance_imemWord (s : State) (w : Word) : (advance s).imemWord w = s.imemWord w := rfl

/-! ### Step 3, Decode -/

@[simp] theorem decodeStage_regs (s : State) : (decodeStage s).regs = s.regs := rfl
@[simp] theorem decodeStage_pc (s : State) : (decodeStage s).pc = s.pc := rfl
@[simp] theorem decodeStage_sreg (s : State) : (decodeStage s).sreg = s.sreg := rfl
@[simp] theorem decodeStage_dmem (s : State) : (decodeStage s).dmem = s.dmem := rfl
@[simp] theorem decodeStage_imem (s : State) : (decodeStage s).imem = s.imem := rfl
@[simp] theorem decodeStage_programSize (s : State) : (decodeStage s).programSize = s.programSize := rfl
@[simp] theorem decodeStage_fetchSlot (s : State) : (decodeStage s).fetchSlot = s.fetchSlot := rfl
@[simp] theorem decodeStage_decodeSlot (s : State) : (decodeStage s).decodeSlot = s.decodeSlot.decoded s := rfl
@[simp] theorem decodeStage_executeSlot (s : State) : (decodeStage s).executeSlot = s.executeSlot := rfl
@[simp] theorem decodeStage_pendingFlush (s : State) : (decodeStage s).pendingFlush = s.pendingFlush := rfl
@[simp] theorem decodeStage_fetchExhausted (s : State) : (decodeStage s).fetchExhausted = s.fetchExhausted := rfl
@[simp] theorem decodeStage_cycleCount (s : State) : (decodeStage s).cycleCount = s.cycleCount := rfl
@[simp] theorem decodeStage_status (s : State) : (decodeStage s).status = s.status := rfl
@[simp] theorem decodeStage_fault (s : State) : (decodeStage s).fault = s.fault := rfl
@[simp] theorem decodeStage_reg (s : State) (i : RegIdx) : (decodeStage s).reg i = s.reg i := rfl
@[simp] theorem decodeStage_cell (s : State) (a : Nat) : (decodeStage s).cell a = s.cell a := rfl
@[simp] theorem decodeStage_imemWord (s : State) (w : Word) : (decodeStage s).imemWord w = s.imemWord w := rfl

/-! ### The cycle counter -/

@[simp] theorem countCycle_regs (s : State) : (countCycle s).regs = s.regs := rfl
@[simp] theorem countCycle_pc (s : State) : (countCycle s).pc = s.pc := rfl
@[simp] theorem countCycle_sreg (s : State) : (countCycle s).sreg = s.sreg := rfl
@[simp] theorem countCycle_dmem (s : State) : (countCycle s).dmem = s.dmem := rfl
@[simp] theorem countCycle_imem (s : State) : (countCycle s).imem = s.imem := rfl
@[simp] theorem countCycle_programSize (s : State) : (countCycle s).programSize = s.programSize := rfl
@[simp] theorem countCycle_fetchSlot (s : State) : (countCycle s).fetchSlot = s.fetchSlot := rfl
@[simp] theorem countCycle_decodeSlot (s : State) : (countCycle s).decodeSlot = s.decodeSlot := rfl
@[simp] theorem countCycle_executeSlot (s : State) : (countCycle s).executeSlot = s.executeSlot := rfl
@[simp] theorem countCycle_pendingFlush (s : State) : (countCycle s).pendingFlush = s.pendingFlush := rfl
@[simp] theorem countCycle_fetchExhausted (s : State) : (countCycle s).fetchExhausted = s.fetchExhausted := rfl
@[simp] theorem countCycle_cycleCount (s : State) : (countCycle s).cycleCount = s.cycleCount + 1 := rfl
@[simp] theorem countCycle_status (s : State) : (countCycle s).status = s.status := rfl
@[simp] theorem countCycle_fault (s : State) : (countCycle s).fault = s.fault := rfl
@[simp] theorem countCycle_reg (s : State) (i : RegIdx) : (countCycle s).reg i = s.reg i := rfl
@[simp] theorem countCycle_cell (s : State) (a : Nat) : (countCycle s).cell a = s.cell a := rfl
@[simp] theorem countCycle_imemWord (s : State) (w : Word) : (countCycle s).imemWord w = s.imemWord w := rfl

/-! ### Step 4, Fetch: what it never changes -/

@[simp] theorem fetchStep_regs (s : State) : (fetchStep s).regs = s.regs := by
  unfold fetchStep; split <;> rfl
@[simp] theorem fetchStep_sreg (s : State) : (fetchStep s).sreg = s.sreg := by
  unfold fetchStep; split <;> rfl
@[simp] theorem fetchStep_dmem (s : State) : (fetchStep s).dmem = s.dmem := by
  unfold fetchStep; split <;> rfl
@[simp] theorem fetchStep_imem (s : State) : (fetchStep s).imem = s.imem := by
  unfold fetchStep; split <;> rfl
@[simp] theorem fetchStep_programSize (s : State) : (fetchStep s).programSize = s.programSize := by
  unfold fetchStep; split <;> rfl
@[simp] theorem fetchStep_decodeSlot (s : State) : (fetchStep s).decodeSlot = s.decodeSlot := by
  unfold fetchStep; split <;> rfl
@[simp] theorem fetchStep_executeSlot (s : State) : (fetchStep s).executeSlot = s.executeSlot := by
  unfold fetchStep; split <;> rfl
@[simp] theorem fetchStep_pendingFlush (s : State) : (fetchStep s).pendingFlush = s.pendingFlush := by
  unfold fetchStep; split <;> rfl
@[simp] theorem fetchStep_cycleCount (s : State) : (fetchStep s).cycleCount = s.cycleCount := by
  unfold fetchStep; split <;> rfl
@[simp] theorem fetchStep_status (s : State) : (fetchStep s).status = s.status := by
  unfold fetchStep; split <;> rfl
@[simp] theorem fetchStep_fault (s : State) : (fetchStep s).fault = s.fault := by
  unfold fetchStep; split <;> rfl
@[simp] theorem fetchStep_reg (s : State) (i : RegIdx) : (fetchStep s).reg i = s.reg i := by
  unfold fetchStep; split <;> rfl
@[simp] theorem fetchStep_cell (s : State) (a : Nat) : (fetchStep s).cell a = s.cell a := by
  unfold fetchStep; split <;> rfl
@[simp] theorem fetchStep_imemWord (s : State) (w : Word) : (fetchStep s).imemWord w = s.imemWord w := by
  unfold fetchStep; split <;> rfl

/-! ### Step 5, Flush: what it never changes -/

@[simp] theorem flushStep_regs (s : State) : (flushStep s).regs = s.regs := by
  unfold flushStep; split <;> rfl
@[simp] theorem flushStep_pc (s : State) : (flushStep s).pc = s.pc := by
  unfold flushStep; split <;> rfl
@[simp] theorem flushStep_sreg (s : State) : (flushStep s).sreg = s.sreg := by
  unfold flushStep; split <;> rfl
@[simp] theorem flushStep_dmem (s : State) : (flushStep s).dmem = s.dmem := by
  unfold flushStep; split <;> rfl
@[simp] theorem flushStep_imem (s : State) : (flushStep s).imem = s.imem := by
  unfold flushStep; split <;> rfl
@[simp] theorem flushStep_programSize (s : State) : (flushStep s).programSize = s.programSize := by
  unfold flushStep; split <;> rfl
@[simp] theorem flushStep_executeSlot (s : State) : (flushStep s).executeSlot = s.executeSlot := by
  unfold flushStep; split <;> rfl
@[simp] theorem flushStep_fetchExhausted (s : State) : (flushStep s).fetchExhausted = s.fetchExhausted := by
  unfold flushStep; split <;> rfl
@[simp] theorem flushStep_cycleCount (s : State) : (flushStep s).cycleCount = s.cycleCount := by
  unfold flushStep; split <;> rfl
@[simp] theorem flushStep_status (s : State) : (flushStep s).status = s.status := by
  unfold flushStep; split <;> rfl
@[simp] theorem flushStep_fault (s : State) : (flushStep s).fault = s.fault := by
  unfold flushStep; split <;> rfl
@[simp] theorem flushStep_reg (s : State) (i : RegIdx) : (flushStep s).reg i = s.reg i := by
  unfold flushStep; split <;> rfl
@[simp] theorem flushStep_cell (s : State) (a : Nat) : (flushStep s).cell a = s.cell a := by
  unfold flushStep; split <;> rfl
@[simp] theorem flushStep_imemWord (s : State) (w : Word) : (flushStep s).imemWord w = s.imemWord w := by
  unfold flushStep; split <;> rfl

/-! ### Step 6, Terminate check: what it never changes -/

@[simp] theorem terminateCheck_regs (s : State) : (terminateCheck s).regs = s.regs := by
  unfold terminateCheck; split <;> rfl
@[simp] theorem terminateCheck_pc (s : State) : (terminateCheck s).pc = s.pc := by
  unfold terminateCheck; split <;> rfl
@[simp] theorem terminateCheck_sreg (s : State) : (terminateCheck s).sreg = s.sreg := by
  unfold terminateCheck; split <;> rfl
@[simp] theorem terminateCheck_dmem (s : State) : (terminateCheck s).dmem = s.dmem := by
  unfold terminateCheck; split <;> rfl
@[simp] theorem terminateCheck_imem (s : State) : (terminateCheck s).imem = s.imem := by
  unfold terminateCheck; split <;> rfl
@[simp] theorem terminateCheck_programSize (s : State) : (terminateCheck s).programSize = s.programSize := by
  unfold terminateCheck; split <;> rfl
@[simp] theorem terminateCheck_fetchSlot (s : State) : (terminateCheck s).fetchSlot = s.fetchSlot := by
  unfold terminateCheck; split <;> rfl
@[simp] theorem terminateCheck_decodeSlot (s : State) : (terminateCheck s).decodeSlot = s.decodeSlot := by
  unfold terminateCheck; split <;> rfl
@[simp] theorem terminateCheck_executeSlot (s : State) : (terminateCheck s).executeSlot = s.executeSlot := by
  unfold terminateCheck; split <;> rfl
@[simp] theorem terminateCheck_pendingFlush (s : State) : (terminateCheck s).pendingFlush = s.pendingFlush := by
  unfold terminateCheck; split <;> rfl
@[simp] theorem terminateCheck_fetchExhausted (s : State) : (terminateCheck s).fetchExhausted = s.fetchExhausted := by
  unfold terminateCheck; split <;> rfl
@[simp] theorem terminateCheck_cycleCount (s : State) : (terminateCheck s).cycleCount = s.cycleCount := by
  unfold terminateCheck; split <;> rfl
@[simp] theorem terminateCheck_fault (s : State) : (terminateCheck s).fault = s.fault := by
  unfold terminateCheck; split <;> rfl
@[simp] theorem terminateCheck_reg (s : State) (i : RegIdx) : (terminateCheck s).reg i = s.reg i := by
  unfold terminateCheck; split <;> rfl
@[simp] theorem terminateCheck_cell (s : State) (a : Nat) : (terminateCheck s).cell a = s.cell a := by
  unfold terminateCheck; split <;> rfl
@[simp] theorem terminateCheck_imemWord (s : State) (w : Word) : (terminateCheck s).imemWord w = s.imemWord w := by
  unfold terminateCheck; split <;> rfl

end Sys2Proof.Machine
end

