-- ==== Sys2Proof/Laws/Memory.lean ====
section
/-! SUPPORT. Data memory and the register file: what a read answers after a write, and the canonical form. -/

namespace Sys2Proof.Machine

@[simp] theorem Memory.read_nil (a : Nat) : Memory.read [] a = 0#8 := rfl

theorem Memory.read_cons (b : Nat) (w : Byte) (m : Memory) (a : Nat) :
    Memory.read ((b, w) :: m) a = if b = a then w else Memory.read m a := rfl

theorem Memory.read_erase_same (m : Memory) (a : Nat) : (m.erase a).read a = 0#8 := by
  induction m with
  | nil => rfl
  | cons cell rest ih =>
    obtain ⟨b, w⟩ := cell
    by_cases h : b = a
    · simpa [Memory.erase, h] using ih
    · simpa [Memory.erase, h, Memory.read_cons] using ih

theorem Memory.read_erase_other (m : Memory) {a b : Nat} (h : b ≠ a) : (m.erase a).read b = m.read b := by
  induction m with
  | nil => rfl
  | cons cell rest ih =>
    obtain ⟨c, w⟩ := cell
    by_cases hc : c = a
    · subst hc
      simpa [Memory.erase, Memory.read_cons, Ne.symm h] using ih
    · by_cases hb : c = b
      · simp [Memory.erase, hb, Memory.read_cons, h]
      · simpa [Memory.erase, hc, hb, Memory.read_cons] using ih

theorem Memory.read_insert_other (m : Memory) {a b : Nat} (v : Byte) (h : b ≠ a) :
    (Memory.insert a v m).read b = m.read b := by
  induction m with
  | nil => simp [Memory.insert, Memory.read_cons, Ne.symm h]
  | cons cell rest ih =>
    obtain ⟨c, w⟩ := cell
    unfold Memory.insert
    split
    · simp [Memory.read_cons, Ne.symm h]
    · simp [Memory.read_cons, ih]

theorem Memory.read_insert_same (m : Memory) (a : Nat) (v : Byte) :
    (Memory.insert a v (m.erase a)).read a = v := by
  induction m with
  | nil => simp [Memory.erase, Memory.insert, Memory.read_cons]
  | cons cell rest ih =>
    obtain ⟨c, w⟩ := cell
    by_cases hc : c = a
    · simpa [Memory.erase, hc] using ih
    · have step : Memory.erase ((c, w) :: rest) a = (c, w) :: Memory.erase rest a := by simp [Memory.erase, hc]
      rw [step]
      unfold Memory.insert
      split
      · simp [Memory.read_cons]
      · simpa [Memory.read_cons, hc] using ih

/-- A write is read back, whatever the memory holds. -/
@[simp] theorem Memory.read_write_same (m : Memory) (a : Nat) (v : Byte) : (m.write a v).read a = v := by
  unfold Memory.write
  split
  · next h => rw [Memory.read_erase_same, h]
  · exact Memory.read_insert_same m a v

/-- A write leaves every other cell alone. -/
theorem Memory.read_write_other (m : Memory) {a b : Nat} (v : Byte) (h : b ≠ a) :
    (m.write a v).read b = m.read b := by
  unfold Memory.write
  split
  · exact Memory.read_erase_other m h
  · rw [Memory.read_insert_other _ v h, Memory.read_erase_other m h]

theorem Memory.wfAbove_cons {low b : Nat} {w : Byte} {m : Memory} :
    Memory.wfAbove low ((b, w) :: m) = true ↔
      low ≤ b ∧ b < 2048 ∧ w ≠ 0#8 ∧ Memory.wfAbove (b + 1) m = true := by
  simp [Memory.wfAbove, and_assoc]

theorem Memory.wfAbove_mono {m : Memory} {low high : Nat} (h : low ≤ high) (hm : Memory.wfAbove high m = true) :
    Memory.wfAbove low m = true := by
  cases m with
  | nil => rfl
  | cons cell rest =>
    obtain ⟨b, w⟩ := cell
    rw [Memory.wfAbove_cons] at hm ⊢
    exact ⟨h.trans hm.1, hm.2⟩

theorem Memory.wfAbove_erase {m : Memory} {low : Nat} (a : Nat) (hm : Memory.wfAbove low m = true) :
    Memory.wfAbove low (m.erase a) = true := by
  induction m generalizing low with
  | nil => rfl
  | cons cell rest ih =>
    obtain ⟨b, w⟩ := cell
    rw [Memory.wfAbove_cons] at hm
    by_cases hb : b = a
    · have : Memory.erase ((b, w) :: rest) a = Memory.erase rest a := by simp [Memory.erase, hb]
      rw [this]
      exact Memory.wfAbove_mono (by omega) (ih hm.2.2.2)
    · have : Memory.erase ((b, w) :: rest) a = (b, w) :: Memory.erase rest a := by simp [Memory.erase, hb]
      rw [this, Memory.wfAbove_cons]
      exact ⟨hm.1, hm.2.1, hm.2.2.1, ih hm.2.2.2⟩

theorem Memory.wfAbove_insert {m : Memory} {low a : Nat} {v : Byte} (hl : low ≤ a) (ha : a < 2048) (hv : v ≠ 0#8)
    (hm : Memory.wfAbove low m = true) (hn : ∀ cell ∈ m, cell.1 ≠ a) :
    Memory.wfAbove low (Memory.insert a v m) = true := by
  induction m generalizing low with
  | nil => simp [Memory.insert, Memory.wfAbove, hl, ha, hv]
  | cons cell rest ih =>
    obtain ⟨b, w⟩ := cell
    rw [Memory.wfAbove_cons] at hm
    have hb : b ≠ a := hn (b, w) (by simp)
    unfold Memory.insert
    split
    · next h => simp only [Memory.wfAbove_cons]; exact ⟨hl, ha, hv, h, hm.2⟩
    · next h =>
      rw [Memory.wfAbove_cons]
      exact ⟨hm.1, hm.2.1, hm.2.2.1,
        ih (by omega) hm.2.2.2 fun cell hc => hn cell (List.mem_cons_of_mem _ hc)⟩

/-- A write to a cell that exists keeps the canonical form. -/
theorem Memory.wf_write {m : Memory} {a : Nat} {v : Byte} (hm : m.wf = true) (ha : a < 2048) :
    (m.write a v).wf = true := by
  unfold Memory.write
  split
  · exact Memory.wfAbove_erase a hm
  · next hv =>
    refine Memory.wfAbove_insert (Nat.zero_le a) ha hv (Memory.wfAbove_erase a hm) ?_
    intro cell hc
    simpa [Memory.erase] using (List.mem_filter.mp hc).2

/-- A listed cell at or above `low` only: what a canonical memory lists below reads as nothing written. -/
theorem Memory.read_below {m : Memory} {low a : Nat} (hm : Memory.wfAbove low m = true) (ha : a < low) :
    m.read a = 0#8 := by
  induction m generalizing low with
  | nil => rfl
  | cons cell rest ih =>
    obtain ⟨b, w⟩ := cell
    rw [Memory.wfAbove_cons] at hm
    rw [Memory.read_cons, if_neg (by omega)]
    exact ih hm.2.2.2 (by omega)

/-- Equal memories are equal data: two canonical memories that read alike everywhere are the same list. -/
theorem Memory.eq_of_read_eq {m m' : Memory} {low : Nat} (hm : Memory.wfAbove low m = true)
    (hm' : Memory.wfAbove low m' = true) (h : ∀ a, m.read a = m'.read a) : m = m' := by
  induction m generalizing m' low with
  | nil =>
    cases m' with
    | nil => rfl
    | cons cell rest =>
      obtain ⟨b, w⟩ := cell
      rw [Memory.wfAbove_cons] at hm'
      exact absurd (by simpa [Memory.read_cons] using (h b).symm) hm'.2.2.1
  | cons cell rest ih =>
    obtain ⟨b, w⟩ := cell
    have hw := (Memory.wfAbove_cons.mp hm)
    cases m' with
    | nil => exact absurd (by simpa [Memory.read_cons] using h b) hw.2.2.1
    | cons cell' rest' =>
      obtain ⟨c, v⟩ := cell'
      have hv := (Memory.wfAbove_cons.mp hm')
      have hbc : b = c := by
        rcases Nat.lt_trichotomy b c with hlt | heq | hgt
        · have := h b
          rw [Memory.read_cons, if_pos rfl, Memory.read_cons, if_neg (by omega),
            Memory.read_below hv.2.2.2 (by omega)] at this
          exact absurd this hw.2.2.1
        · exact heq
        · have := h c
          rw [Memory.read_cons, if_neg (by omega), Memory.read_below hw.2.2.2 (by omega), Memory.read_cons,
            if_pos rfl] at this
          exact absurd this.symm hv.2.2.1
      subst hbc
      have hwv : w = v := by simpa [Memory.read_cons] using h b
      subst hwv
      congr 1
      refine ih hw.2.2.2 hv.2.2.2 fun a => ?_
      by_cases hab : b = a
      · subst hab
        rw [Memory.read_below hw.2.2.2 (by omega), Memory.read_below hv.2.2.2 (by omega)]
      · simpa [Memory.read_cons, hab] using h a

/-! ### Registers -/

@[simp] theorem writeReg_reg_same (s : State) (d : RegIdx) (v : Byte) : (s.writeReg d v).reg d = v := by
  simp [State.reg, State.writeReg]

theorem writeReg_reg_other (s : State) {d i : RegIdx} (v : Byte) (h : i ≠ d) :
    (s.writeReg d v).reg i = s.reg i := by
  have : d.toNat ≠ i.toNat := fun e => h (BitVec.eq_of_toNat_eq e.symm)
  simp [State.reg, State.writeReg, this]

/-! ### The two memory primitives -/

/-- All that `memRead` can do (R40): answer the cell, or fault outside the 2048 cells. -/
theorem memRead_spec (a : Nat) (s : State) :
    memRead a s = if a < 2048 then .ok (s.cell a) else .error (.dataAddressOutOfRange a) := rfl

/-- If `memWrite` answers a state, cell `a` holds `v`, no other cell and nothing else changed, and the canonical form
is kept (R40). -/
theorem memWrite_spec {a : Nat} {v : Byte} {s t : State} (h : memWrite a v s = .ok t) :
    a < 2048 ∧ t = s.setDmem (s.dmem.write a v) ∧ t.cell a = v ∧ (∀ b, b ≠ a → t.cell b = s.cell b) ∧
      (s.dmem.wf = true → t.dmem.wf = true) := by
  by_cases ha : a < 2048
  · have e : t = s.setDmem (s.dmem.write a v) := by
      simpa [memWrite, Config.dmemBytes, ha] using h.symm
    subst e
    exact ⟨ha, rfl, by simp [State.cell], fun b hb => Memory.read_write_other _ v hb,
      fun hm => Memory.wf_write hm ha⟩
  · simp [memWrite, Config.dmemBytes, ha] at h

/-- A 6-bit address always names a cell (R54). -/
theorem memWrite_field (f : Field) (v : Byte) (s : State) :
    memWrite (dataAddress f) v s = .ok (s.setDmem (s.dmem.write f.toNat v)) := by
  have : f.toNat < 2048 := by omega
  simp [memWrite, dataAddress, Config.dmemBytes, this]

/-- A 6-bit address always names a cell (R54). -/
theorem memRead_field (f : Field) (s : State) : memRead (dataAddress f) s = .ok (s.cell f.toNat) := by
  have : f.toNat < 2048 := by omega
  simp [memRead, dataAddress, Config.dmemBytes, this]

end Sys2Proof.Machine
end

