-- ==== Sys2Proof/Laws/Exec.lean ====
section
/-! SUPPORT. What the execute unit can do, said once. -/

namespace Sys2Proof.Machine

/-- All that branch resolution can do (R122). -/
theorem resolveBranch_cases (target : Word) (s : State) :
    target.toNat < s.programSize.val ∧ resolveBranch target s = s.redirect target ∨
      s.programSize.val ≤ target.toNat ∧
        resolveBranch target s = s.raise (.branchTargetOutOfRange s.executeSlot.fetchPc target) := by
  unfold resolveBranch
  split
  · next h => exact .inr ⟨h, rfl⟩
  · next h => exact .inl ⟨Nat.lt_of_not_le h, rfl⟩

/-- A result that is written with new flags, as an assignment to the state (R100). -/
@[simp] theorem commitAlu_eq (d : RegIdx) (r : Byte) (f : Sreg) (s : State) :
    commitAlu d r f s = .next ((s.writeReg d r).setSreg f) := rfl

@[simp] theorem execLdr_eq (d : RegIdx) (addr : Field) (s : State) :
    execLdr d addr s = .next (s.writeReg d (s.cell addr.toNat)) := by
  simp [execLdr, memRead_field]

@[simp] theorem execStr_eq (d : RegIdx) (addr : Field) (s : State) :
    execStr d addr s = .next (s.setDmem (s.dmem.write addr.toNat (op1 s))) := by
  simp [execStr, memWrite_field]

/-- The five things that an instruction can do to the state: write a register and flags, write one of the first 64
cells, nothing, redirect to a target inside the program, or raise a fault of its own. -/
inductive Effect (s : State) : State → Prop where
  | write (d : RegIdx) (v : Byte) (f : Sreg) : Effect s ((s.writeReg d v).setSreg f)
  | store (addr : Field) (v : Byte) : Effect s (s.setDmem (s.dmem.write addr.toNat v))
  | none : Effect s s
  | redirect (target : Word) (h : target.toNat < s.programSize.val) : Effect s (s.redirect target)
  | raise (r : FaultRecord) (h : r.fetchPc = s.executeSlot.fetchPc) : Effect s (s.raise r)

theorem resolveBranch_effect (target : Word) (s : State) : Effect s (resolveBranch target s) := by
  rcases resolveBranch_cases target s with ⟨h, e⟩ | ⟨_, e⟩
  · exact e ▸ .redirect target h
  · exact e ▸ .raise _ rfl

/-- The execute unit always answers a state, and it has one of the five effects on it. -/
theorem exec_effect (i : Instr) (s : State) : ∃ t, exec i s = .next t ∧ Effect s t := by
  cases i with
  | add d r => exact ⟨_, rfl, .write ..⟩
  | sub d r => exact ⟨_, rfl, .write ..⟩
  | mul d r => exact ⟨_, rfl, .write ..⟩
  | movi d imm => exact ⟨_, rfl, .write d (imm8 imm) s.sreg⟩
  | beqz d imm =>
    by_cases h : op1 s = 0#8
    · exact ⟨_, by simp only [exec, execBeqz, if_pos h], resolveBranch_effect (beqzTarget imm s) s⟩
    · exact ⟨s, by simp only [exec, execBeqz, if_neg h], .none⟩
  | andi d imm => exact ⟨_, rfl, .write ..⟩
  | eor d r => exact ⟨_, rfl, .write ..⟩
  | br hi lo => exact ⟨_, rfl, resolveBranch_effect _ s⟩
  | sal d imm => exact ⟨_, rfl, .write ..⟩
  | sar d imm => exact ⟨_, rfl, .write ..⟩
  | ldr d addr => exact ⟨_, execLdr_eq d addr s, .write d _ s.sreg⟩
  | str d addr => exact ⟨_, execStr_eq d addr s, .store ..⟩
  | reserved12 f1 f2 => exact ⟨_, rfl, .raise _ rfl⟩
  | reserved13 f1 f2 => exact ⟨_, rfl, .raise _ rfl⟩
  | reserved14 f1 f2 => exact ⟨_, rfl, .raise _ rfl⟩
  | reserved15 f1 f2 => exact ⟨_, rfl, .raise _ rfl⟩

/-- The inversion of `exec_effect`, for a next state at hand. -/
theorem effect_of_exec {i : Instr} {s t : State} (h : exec i s = .next t) : Effect s t := by
  obtain ⟨u, hu, e⟩ := exec_effect i s
  rw [h] at hu
  injection hu with hu
  exact hu ▸ e

end Sys2Proof.Machine
end

