-- ==== Sys2Proof/Laws/PerInstr.lean ====
section
/-! SUPPORT. A statement about every instruction as syntax, one lemma per constructor. -/

namespace Sys2Proof.Laws

/-- The opcode field of an instruction's word is below 12 exactly when the instruction is one of the twelve that a
well-formed program contains (30_encoding.md rules R68 and R72). -/
def WellFormedBelowTwelve.Statement (i : Instr) : Prop :=
  i.wellFormed = decide ((opcodeOf (encode i)).toNat < 12)

theorem WellFormedBelowTwelve.add (rd rs : Field) :
    WellFormedBelowTwelve.Statement (.add rd rs) := by
  simp [Statement, Instr.wellFormed, encode]

theorem WellFormedBelowTwelve.sub (rd rs : Field) :
    WellFormedBelowTwelve.Statement (.sub rd rs) := by
  simp [Statement, Instr.wellFormed, encode]

theorem WellFormedBelowTwelve.mul (rd rs : Field) :
    WellFormedBelowTwelve.Statement (.mul rd rs) := by
  simp [Statement, Instr.wellFormed, encode]

theorem WellFormedBelowTwelve.movi (rd imm : Field) :
    WellFormedBelowTwelve.Statement (.movi rd imm) := by
  simp [Statement, Instr.wellFormed, encode]

theorem WellFormedBelowTwelve.beqz (rd imm : Field) :
    WellFormedBelowTwelve.Statement (.beqz rd imm) := by
  simp [Statement, Instr.wellFormed, encode]

theorem WellFormedBelowTwelve.andi (rd imm : Field) :
    WellFormedBelowTwelve.Statement (.andi rd imm) := by
  simp [Statement, Instr.wellFormed, encode]

theorem WellFormedBelowTwelve.eor (rd rs : Field) :
    WellFormedBelowTwelve.Statement (.eor rd rs) := by
  simp [Statement, Instr.wellFormed, encode]

theorem WellFormedBelowTwelve.br (rhi rlo : Field) :
    WellFormedBelowTwelve.Statement (.br rhi rlo) := by
  simp [Statement, Instr.wellFormed, encode]

theorem WellFormedBelowTwelve.sal (rd imm : Field) :
    WellFormedBelowTwelve.Statement (.sal rd imm) := by
  simp [Statement, Instr.wellFormed, encode]

theorem WellFormedBelowTwelve.sar (rd imm : Field) :
    WellFormedBelowTwelve.Statement (.sar rd imm) := by
  simp [Statement, Instr.wellFormed, encode]

theorem WellFormedBelowTwelve.ldr (rd addr : Field) :
    WellFormedBelowTwelve.Statement (.ldr rd addr) := by
  simp [Statement, Instr.wellFormed, encode]

theorem WellFormedBelowTwelve.str (rd addr : Field) :
    WellFormedBelowTwelve.Statement (.str rd addr) := by
  simp [Statement, Instr.wellFormed, encode]

theorem WellFormedBelowTwelve.reserved12 (f1 f2 : Field) :
    WellFormedBelowTwelve.Statement (.reserved12 f1 f2) := by
  simp [Statement, Instr.wellFormed, encode]

theorem WellFormedBelowTwelve.reserved13 (f1 f2 : Field) :
    WellFormedBelowTwelve.Statement (.reserved13 f1 f2) := by
  simp [Statement, Instr.wellFormed, encode]

theorem WellFormedBelowTwelve.reserved14 (f1 f2 : Field) :
    WellFormedBelowTwelve.Statement (.reserved14 f1 f2) := by
  simp [Statement, Instr.wellFormed, encode]

theorem WellFormedBelowTwelve.reserved15 (f1 f2 : Field) :
    WellFormedBelowTwelve.Statement (.reserved15 f1 f2) := by
  simp [Statement, Instr.wellFormed, encode]

end Sys2Proof.Laws
end

