-- ==== Sys2Proof/Laws/Pipeline.lean ====
section
/-! SUPPORT. The six steps: what each does to the fields it changes, and what a step can do, said once. -/

namespace Sys2Proof.Machine

/-! ### Fetch, Flush, Terminate check -/

theorem fetchStep_pc (s : State) : (fetchStep s).pc = if canFetch s then s.pc + 1#16 else s.pc := by
  unfold fetchStep; split <;> simp [*]

theorem fetchStep_fetchSlot_valid (s : State) : (fetchStep s).fetchSlot.valid = canFetch s := by
  unfold fetchStep; split <;> simp_all

theorem fetchStep_fetchSlot_raw (s : State) :
    (fetchStep s).fetchSlot.raw = if canFetch s then s.imemWord s.pc else s.fetchSlot.raw := by
  unfold fetchStep; split <;> simp [*]

theorem fetchStep_fetchSlot_fetchPc (s : State) :
    (fetchStep s).fetchSlot.fetchPc = if canFetch s then s.pc else s.fetchSlot.fetchPc := by
  unfold fetchStep; split <;> simp [*]

theorem fetchStep_fetchExhausted (s : State) : (fetchStep s).fetchExhausted =
    (s.fetchExhausted || (!canFetch s && decide (s.programSize.val ≤ s.pc.toNat))) := by
  unfold fetchStep; split <;> simp [*]

theorem flushStep_fetchSlot (s : State) :
    (flushStep s).fetchSlot = { s.fetchSlot with valid := s.fetchSlot.valid && !s.pendingFlush } := by
  unfold flushStep; split <;> simp [*]

theorem flushStep_decodeSlot (s : State) :
    (flushStep s).decodeSlot = { s.decodeSlot with valid := s.decodeSlot.valid && !s.pendingFlush } := by
  unfold flushStep; split <;> simp [*]

theorem flushStep_pendingFlush (s : State) : (flushStep s).pendingFlush = false := by
  unfold flushStep; split <;> simp_all

theorem terminateCheck_status (s : State) :
    (terminateCheck s).status = if drained s then .halted else s.status := by
  unfold terminateCheck; split <;> simp

theorem canFetch_iff (s : State) :
    canFetch s = true ↔ s.pc.toNat < s.programSize.val ∧ s.fetchExhausted = false := by
  simp [canFetch]

/-- Fetch looks only at what Advance and Decode leave alone. -/
theorem canFetch_decodeStage_advance (s : State) :
    canFetch (decodeStage (advance s)) = canFetch s := rfl

theorem drained_iff (s : State) : drained s = true ↔
    s.fetchExhausted = true ∧ s.fetchSlot.valid = false ∧ s.decodeSlot.valid = false ∧
      s.executeSlot.valid = false := by
  simp [drained, and_assoc]

/-! ### The Decode behaviour -/

@[simp] theorem Slot.decoded_valid (slot : Slot) (s : State) : (slot.decoded s).valid = slot.valid := by
  unfold Slot.decoded; split <;> rfl

@[simp] theorem Slot.decoded_raw (slot : Slot) (s : State) : (slot.decoded s).raw = slot.raw := by
  unfold Slot.decoded; split <;> rfl

@[simp] theorem Slot.decoded_fetchPc (slot : Slot) (s : State) : (slot.decoded s).fetchPc = slot.fetchPc := by
  unfold Slot.decoded; split <;> rfl

/-- All that Decode does to a valid slot (R144). -/
theorem Slot.decoded_of_valid {slot : Slot} (s : State) (h : slot.valid = true) :
    (slot.decoded s).opcode = opcodeOf slot.raw ∧ (slot.decoded s).field1 = field1Of slot.raw ∧
      (slot.decoded s).field2 = field2Of slot.raw ∧ (slot.decoded s).op1 = s.reg (field1Of slot.raw) ∧
      (slot.decoded s).op2 = if isRFormat (opcodeOf slot.raw) then s.reg (field2Of slot.raw) else 0#8 := by
  simp [Slot.decoded, h]

/-! ### Steps 2 to 6 together -/

section
variable (s : State)

@[simp] theorem finishCycle_regs : (finishCycle s).regs = s.regs := by simp [finishCycle]
@[simp] theorem finishCycle_sreg : (finishCycle s).sreg = s.sreg := by simp [finishCycle]
@[simp] theorem finishCycle_dmem : (finishCycle s).dmem = s.dmem := by simp [finishCycle]
@[simp] theorem finishCycle_imem : (finishCycle s).imem = s.imem := by simp [finishCycle]
@[simp] theorem finishCycle_programSize : (finishCycle s).programSize = s.programSize := by simp [finishCycle]
@[simp] theorem finishCycle_fault : (finishCycle s).fault = s.fault := by simp [finishCycle]
@[simp] theorem finishCycle_executeSlot : (finishCycle s).executeSlot = s.decodeSlot := by simp [finishCycle]
@[simp] theorem finishCycle_cycleCount : (finishCycle s).cycleCount = s.cycleCount + 1 := by simp [finishCycle]
@[simp] theorem finishCycle_pendingFlush : (finishCycle s).pendingFlush = false := by
  simp [finishCycle, flushStep_pendingFlush]
@[simp] theorem finishCycle_reg (i : RegIdx) : (finishCycle s).reg i = s.reg i := by simp [State.reg]
@[simp] theorem finishCycle_cell (a : Nat) : (finishCycle s).cell a = s.cell a := by simp [State.cell]
@[simp] theorem finishCycle_imemWord (w : Word) : (finishCycle s).imemWord w = s.imemWord w := by
  simp [State.imemWord]

theorem finishCycle_pc : (finishCycle s).pc = if canFetch s then s.pc + 1#16 else s.pc := by
  simp [finishCycle, fetchStep_pc, canFetch_decodeStage_advance]
  rfl

theorem finishCycle_fetchExhausted : (finishCycle s).fetchExhausted =
    (s.fetchExhausted || (!canFetch s && decide (s.programSize.val ≤ s.pc.toNat))) := by
  simp [finishCycle, fetchStep_fetchExhausted, canFetch_decodeStage_advance]
  rfl

theorem finishCycle_decodeSlot : (finishCycle s).decodeSlot =
    { s.fetchSlot.decoded s with valid := s.fetchSlot.valid && !s.pendingFlush } := by
  simp only [finishCycle, countCycle_decodeSlot, terminateCheck_decodeSlot, flushStep_decodeSlot,
    fetchStep_decodeSlot, fetchStep_pendingFlush, decodeStage_decodeSlot, decodeStage_pendingFlush,
    advance_pendingFlush, advance_decodeSlot, Slot.decoded_valid]
  rfl

theorem finishCycle_fetchSlot_valid :
    (finishCycle s).fetchSlot.valid = (canFetch s && !s.pendingFlush) := by
  simp [finishCycle, flushStep_fetchSlot, fetchStep_fetchSlot_valid, canFetch_decodeStage_advance]

theorem finishCycle_fetchSlot_raw :
    (finishCycle s).fetchSlot.raw = if canFetch s then s.imemWord s.pc else s.fetchSlot.raw := by
  simp [finishCycle, flushStep_fetchSlot, fetchStep_fetchSlot_raw, canFetch_decodeStage_advance]
  rfl

theorem finishCycle_fetchSlot_fetchPc :
    (finishCycle s).fetchSlot.fetchPc = if canFetch s then s.pc else s.fetchSlot.fetchPc := by
  simp [finishCycle, flushStep_fetchSlot, fetchStep_fetchSlot_fetchPc, canFetch_decodeStage_advance]
  rfl

/-- The Terminate check reads the slots and the flag as the cycle leaves them (R148). -/
theorem finishCycle_status :
    (finishCycle s).status = if drained (finishCycle s) then .halted else s.status := by
  have h : drained (finishCycle s) = drained (flushStep (fetchStep (decodeStage (advance s)))) := by
    simp [drained, finishCycle]
  rw [h]
  simp [finishCycle, terminateCheck_status]

end

/-! ### What a step can do -/

/-- A step of a machine that is not Running changes nothing (R33). -/
theorem step_of_not_running {s : State} (h : s.status ≠ .running) : step s = .next s := by
  unfold step stepInput
  split
  · next e => exact absurd e h
  · rfl
  · rfl

/-- A step of a Running machine whose commit answers `u` (R149). -/
theorem step_of_commit {s u : State} (hs : s.status = .running) (h : commit s = .next u) :
    step s = .next (afterCommit u) := by
  simp [step, stepInput, hs, cycle, h]

/-- Commit always answers a state, with one of the five effects, or none if the Execute slot is empty (R141). -/
theorem commit_effect (s : State) :
    ∃ u, commit s = .next u ∧
      (s.executeSlot.valid = false ∧ u = s ∨
        s.executeSlot.valid = true ∧ exec s.executeSlot.instr s = .next u ∧ Effect s u) := by
  cases hv : s.executeSlot.valid
  · exact ⟨s, by simp [commit, hv], .inl ⟨rfl, rfl⟩⟩
  · obtain ⟨u, hu, e⟩ := exec_effect s.executeSlot.instr s
    exact ⟨u, by simp [commit, hv, hu], .inr ⟨rfl, hu, e⟩⟩

/-- All that a step can do: nothing when not Running; else commit nothing or an instruction's effect, and then stop
on a fault or finish the cycle. -/
theorem step_cases {s t : State} (h : step s = .next t) :
    s.status ≠ .running ∧ t = s ∨
    s.status = .running ∧ ∃ u,
      (s.executeSlot.valid = false ∧ u = s ∨
        s.executeSlot.valid = true ∧ exec s.executeSlot.instr s = .next u ∧ Effect s u) ∧
      (u.status = .faulted ∧ t = u ∨ u.status ≠ .faulted ∧ t = finishCycle u) := by
  by_cases hs : s.status = .running
  · obtain ⟨u, hu, hc⟩ := commit_effect s
    rw [step_of_commit hs hu] at h
    injection h with h
    refine .inr ⟨hs, u, hc, ?_⟩
    unfold afterCommit at h
    by_cases hf : u.status = .faulted
    · exact .inl ⟨hf, by rw [← h, if_pos hf]⟩
    · exact .inr ⟨hf, by rw [← h, if_neg hf]⟩
  · rw [step_of_not_running hs] at h
    injection h with h
    exact .inl ⟨hs, h.symm⟩

end Sys2Proof.Machine
end

