-- ==== Sys2Proof/Laws/Reset.lean ====
section
/-! SUPPORT. What program load, reset and `placeForCommit` do, said once. -/

namespace Sys2Proof.Machine

/-- All that program load can do (R24, R25, decision D16). -/
theorem loadProgram_cases (words : List Word) (s : State) :
    (∃ h : words.length < 1025,
      loadProgram words s =
        .next { s with imem := storeWords 0 words s.imem, programSize := ⟨words.length, h⟩ }) ∨
      1024 < words.length ∧ loadProgram words s = .refused (.programTooLong words.length) := by
  unfold loadProgram
  split
  · next h => exact .inl ⟨h, rfl⟩
  · next h => exact .inr ⟨by omega, rfl⟩

/-- Word `k` of instruction memory after the words from `i` on are stored (R24). -/
theorem storeWords_getElem? (words : List Word) (i k : Nat) (m : Vector Word 1024) :
    (storeWords i words m)[k]? =
      if i ≤ k ∧ k < i + words.length ∧ k < 1024 then words[k - i]? else m[k]? := by
  induction words generalizing i m with
  | nil => simp only [storeWords, List.length_nil]; rw [if_neg (by omega)]
  | cons w rest ih =>
    simp only [storeWords, ih, List.length_cons]
    by_cases h1 : i + 1 ≤ k ∧ k < i + 1 + rest.length ∧ k < 1024
    · have e : k - i = (k - (i + 1)) + 1 := by omega
      rw [if_pos h1, if_pos (by omega), e, List.getElem?_cons_succ]
    · rw [if_neg h1]
      by_cases h2 : i = k
      · subst h2
        by_cases h3 : i < 1024
        · rw [if_pos (by omega)]
          simp [h3]
        · rw [if_neg (by omega)]
          simp [h3]
      · rw [if_neg (by omega)]
        simp [h2]

/-- A word placed for Commit stands in the Execute slot with its index, and decoded (log entry 9). -/
theorem placeForCommit_executeSlot (w : Word) (s : State) :
    (placeForCommit w s).executeSlot.valid = true ∧ (placeForCommit w s).executeSlot.raw = w ∧
      (placeForCommit w s).executeSlot.instr = decode w ∧ (placeForCommit w s).status = .running := by
  simp [placeForCommit, Slot.decoded, Slot.instr, decode]

end Sys2Proof.Machine
end

