-- ==== Sys2Proof/Laws/Run.lean ====
section
/-! SUPPORT. Runs of several steps. -/

namespace Sys2Proof.Machine

@[simp] theorem run_zero (s : State) : core.run 0 s = .next s := rfl

/-- A run whose first step answers `t` is the shorter run from `t`. -/
theorem run_succ {s t : State} (n : Nat) (h : step s = .next t) : core.run (n + 1) s = core.run n t := by
  have h' : core.step s = .next t := h
  simp only [Host.Core.run, h']

/-- A run of `n + 1` steps that answers a state is one step and then a run of `n` steps. -/
theorem run_succ_cases {s t : State} {n : Nat} (h : core.run (n + 1) s = .next t) :
    ∃ u, step s = .next u ∧ core.run n u = .next t := by
  cases hu : step s with
  | next u => exact ⟨u, rfl, by rw [← run_succ n hu]; exact h⟩
  | fault f =>
    have h' : core.step s = .fault f := hu
    simp [Host.Core.run, h'] at h
  | refused r =>
    have h' : core.step s = .refused r := hu
    simp [Host.Core.run, h'] at h

/-- What every step keeps, every run keeps. -/
theorem run_keeps {P : State → Prop} (hP : ∀ s t, P s → step s = .next t → P t) {n : Nat} {s t : State}
    (hs : P s) (h : core.run n s = .next t) : P t := by
  induction n generalizing s with
  | zero =>
    have e : (Host.Outcome.next s : Result) = .next t := h
    injection e with e
    exact e ▸ hs
  | succ n ih =>
    obtain ⟨u, hu, hr⟩ := run_succ_cases h
    exact ih (hP s u hs hu) hr

end Sys2Proof.Machine
end

