-- ==== Sys2Proof/Tests/Slice0.lean ====
section
/-! SUPPORT. Small tests of the model against 95_test_vectors.md, and for every statement of the obligations file with
hypotheses a witness that meets them. Every expected value is transcribed from the spec's vectors and traces, or worked
out by hand from the rule a test names. -/

namespace Sys2Proof.Tests

open Sys2Proof.Machine

/-! ### Helpers -/

/-- A decoded slot with the word `w` fetched at index `p`, and the snapshots `a` and `b`. -/
def slotOf (w p : Word) (a b : Byte) : Slot :=
  { valid := true, raw := w, fetchPc := p, opcode := opcodeOf w, field1 := field1Of w, field2 := field2Of w,
    op1 := a, op2 := b }

/-- A Running machine with `n` words of program and the slot `e` in Execute; its flags are those that
`ADD 0x80 + 0xFF` leaves (V-ADD): C = V = S = 1 and N = Z = 0. -/
def machine (n : Fin 1025) (e : Slot) : State :=
  { State.reset with
    programSize := n, executeSlot := e, fetchExhausted := false, status := .running,
    sreg := { c := true, v := true, n := false, s := true, z := false } }

/-- The state of a result that is one. -/
def stateOf : Result → State
  | .next s => s
  | .fault _ => State.reset
  | .refused _ => State.reset

/-- What the execute unit leaves of `machine` for the word `w` with snapshots `a` and `b`. -/
def committed (n : Fin 1025) (w p : Word) (a b : Byte) : State :=
  stateOf (exec (decode w) (machine n (slotOf w p a b)))

/-- The machine after `n` cycles of a program. -/
def ran (n : Nat) (words : List Word) : State := stateOf (core.run n (stateOf (boot words [])))

/-! ### Well-formedness -/

theorem test_reserved_instructions_are_ill_formed :
    (Instr.reserved12 1#6 1#6).wellFormed = false ∧ (Instr.reserved13 0#6 0#6).wellFormed = false ∧
      (Instr.reserved14 0#6 0#6).wellFormed = false ∧ (Instr.reserved15 63#6 63#6).wellFormed = false := by
  decide

theorem test_operand_checks_refuse :
    registerInRange 64 = false ∧ immediateInRange 32 = false ∧ immediateInRange (-33) = false ∧
      addressInRange 64 = false ∧ addressInRange (-1) = false := by
  decide

/-- The texts that V-ENC lists as rejected by the loader. -/
theorem test_loader_rejects :
    [assembleLine ⟨"MOVI", [.reg 0, .int 200]⟩, assembleLine ⟨"MOVI", [.reg 0, .int 32]⟩,
        assembleLine ⟨"MOVI", [.reg 0, .int (-33)]⟩, assembleLine ⟨"LDR", [.reg 1, .int 64]⟩,
        assembleLine ⟨"LDR", [.reg 1, .int (-1)]⟩, assembleLine ⟨"ADD", [.reg 64, .reg 0]⟩,
        assembleLine ⟨"ADD", [.reg 0, .int 5]⟩, assembleLine ⟨"NOP", []⟩,
        assembleLine ⟨"MOVI", [.reg 0]⟩].map (fun r => match r with
          | .ok _ => none
          | .error e => some e) =
      [some .immediateOutOfRange, some .immediateOutOfRange, some .immediateOutOfRange, some .immediateOutOfRange,
        some .immediateOutOfRange, some .registerOutOfRange, some .malformedLine, some .unknownMnemonic,
        some .malformedLine] := by
  decide

/-- Texts and words of V-ENC. -/
theorem test_loader_encodes :
    [assembleLine ⟨"ADD", [.reg 63, .reg 63]⟩, assembleLine ⟨"MOVI", [.reg 0, .int (-32)]⟩,
        assembleLine ⟨"BEQZ", [.reg 3, .int (-7)]⟩, assembleLine ⟨"LDR", [.reg 5, .int 63]⟩].map (fun r => match r with
          | .ok w => some w
          | .error _ => none) =
      [some 0x0FFF#16, some 0x3020#16, some 0x40F9#16, some 0xA17F#16] := by
  decide

/-! ### Decoding: every opcode, from a word written out in its fields (V-ENC) -/

theorem test_decode_add : decode 0b0000000000000001#16 = .add 0#6 1#6 := by decide
theorem test_decode_sub : decode 0b0001000010000011#16 = .sub 2#6 3#6 := by decide
theorem test_decode_mul : decode 0b0010000100000101#16 = .mul 4#6 5#6 := by decide
theorem test_decode_movi : decode 0b0011000000100000#16 = .movi 0#6 32#6 := by decide
theorem test_decode_beqz : decode 0b0100000011111001#16 = .beqz 3#6 57#6 := by decide
theorem test_decode_andi : decode 0b0101000111001111#16 = .andi 7#6 15#6 := by decide
theorem test_decode_eor : decode 0b0110001010001011#16 = .eor 10#6 11#6 := by decide
theorem test_decode_br : decode 0b0111001010001011#16 = .br 10#6 11#6 := by decide
theorem test_decode_sal : decode 0b1000000001000011#16 = .sal 1#6 3#6 := by decide
theorem test_decode_sar : decode 0b1001101010111100#16 = .sar 42#6 60#6 := by decide
theorem test_decode_ldr : decode 0b1010000101111111#16 = .ldr 5#6 63#6 := by decide
theorem test_decode_str : decode 0b1011000000001010#16 = .str 0#6 10#6 := by decide
theorem test_decode_reserved12 : decode 0b1100000001000001#16 = .reserved12 1#6 1#6 := by decide
theorem test_decode_reserved13 : decode 0b1101000001000010#16 = .reserved13 1#6 2#6 := by decide
theorem test_decode_reserved14 : decode 0b1110111111000000#16 = .reserved14 63#6 0#6 := by decide
theorem test_decode_reserved15 : decode 0b1111111111111111#16 = .reserved15 63#6 63#6 := by decide

theorem test_decode_table_word :
    decodeTableWord 16 0x9ABC = some (.sar 42#6 60#6) ∧ decodeTableWord 16 0xFFFF = some (.reserved15 63#6 63#6) ∧
      decodeTableWord 24 0 = none := by
  decide

/-! ### Instructions (V-ADD to V-LS) -/

theorem test_add_all_flags :
    (committed 1 0x0001#16 0#16 0x80#8 0xFF#8).reg 0#6 = 0x7F#8 ∧
      (committed 1 0x0001#16 0#16 0x80#8 0xFF#8).sreg = ⟨true, true, false, true, false⟩ := by decide

theorem test_add_wraps_to_zero :
    (committed 1 0x0042#16 0#16 0xFF#8 0x01#8).reg 1#6 = 0x00#8 ∧
      (committed 1 0x0042#16 0#16 0xFF#8 0x01#8).sreg = ⟨true, false, false, false, true⟩ := by decide

theorem test_sub_borrows_and_keeps_carry :
    (committed 1 0x1083#16 0#16 0x03#8 0x05#8).reg 2#6 = 0xFE#8 ∧
      (committed 1 0x1083#16 0#16 0x03#8 0x05#8).sreg = ⟨true, false, true, true, false⟩ := by decide

theorem test_sub_overflows :
    (committed 1 0x1083#16 0#16 0x7F#8 0xFF#8).reg 2#6 = 0x80#8 ∧
      (committed 1 0x1083#16 0#16 0x7F#8 0xFF#8).sreg = ⟨true, true, true, false, false⟩ := by decide

/-- The stale S of V-MUL: S stays 1 although N XOR V is 0. -/
theorem test_mul_leaves_stale_sign :
    (committed 1 0x2105#16 0#16 0x0C#8 0x0B#8).reg 4#6 = 0x84#8 ∧
      (committed 1 0x2105#16 0#16 0x0C#8 0x0B#8).sreg = ⟨true, true, true, true, false⟩ := by decide

theorem test_mul_low_byte : (committed 1 0x2105#16 0#16 0xC8#8 0x03#8).reg 4#6 = 0x58#8 := by decide

theorem test_eor_of_equal_operands :
    (committed 1 0x628B#16 0#16 0x5A#8 0x5A#8).reg 10#6 = 0x00#8 ∧
      (committed 1 0x628B#16 0#16 0x5A#8 0x5A#8).sreg = ⟨true, true, false, true, true⟩ := by decide

theorem test_eor_bits : (committed 1 0x628B#16 0#16 0xFF#8 0x7F#8).reg 10#6 = 0x80#8 := by decide

theorem test_movi_extends_sign_and_keeps_flags :
    (committed 1 0x3020#16 0#16 0#8 0#8).reg 0#6 = 0xE0#8 ∧
      (committed 1 0x3020#16 0#16 0#8 0#8).sreg = ⟨true, true, false, true, false⟩ := by decide

theorem test_movi_largest_immediate : (committed 1 0x301F#16 0#16 0#8 0#8).reg 0#6 = 0x1F#8 := by decide

theorem test_andi_extends_its_mask :
    (committed 1 0x51E0#16 0#16 0xFF#8 0#8).reg 7#6 = 0xE0#8 ∧
      (committed 1 0x51E0#16 0#16 0xFF#8 0#8).sreg = ⟨true, true, true, true, false⟩ := by decide

theorem test_andi_positive_mask : (committed 1 0x51CF#16 0#16 0xFF#8 0#8).reg 7#6 = 0x0F#8 := by decide

theorem test_sal_minus_one_shifts_by_seven :
    (committed 1 0x807F#16 0#16 0x01#8 0#8).reg 1#6 = 0x80#8 ∧
      (committed 1 0x807F#16 0#16 0x01#8 0#8).sreg = ⟨true, true, true, true, false⟩ := by decide

theorem test_sal_by_eight_does_not_shift : (committed 1 0x8048#16 0#16 0xA5#8 0#8).reg 1#6 = 0xA5#8 := by decide

theorem test_sar_copies_the_sign :
    (committed 1 0x9082#16 0#16 0x96#8 0#8).reg 2#6 = 0xE5#8 ∧
      (committed 1 0x9082#16 0#16 0x96#8 0#8).sreg = ⟨true, true, true, true, false⟩ := by decide

theorem test_sar_masks_a_negative_immediate :
    (committed 1 0x90B9#16 0#16 0x7E#8 0#8).reg 2#6 = 0x3F#8 := by decide

/-- X1 and X7 of V-BR. -/
theorem test_beqz_taken_and_not_taken :
    (committed 9 0x4003#16 2#16 0#8 0#8).pc = 6#16 ∧ (committed 9 0x4003#16 2#16 0#8 0#8).pendingFlush = true ∧
      (committed 8 0x401F#16 5#16 1#8 0#8).pc = 0#16 ∧ (committed 8 0x401F#16 5#16 1#8 0#8).fault = none ∧
      (committed 8 0x401F#16 5#16 1#8 0#8).pendingFlush = false := by decide

/-- X5 of V-BR: the negative sum wraps. -/
theorem test_beqz_negative_target_faults :
    (committed 3 0x403B#16 0#16 0#8 0#8).status = .faulted ∧
      (committed 3 0x403B#16 0#16 0#8 0#8).fault = some (.branchTargetOutOfRange 0#16 65532#16) ∧
      (committed 3 0x403B#16 0#16 0#8 0#8).pc = 0#16 := by decide

/-- X11 of V-BR: the largest legal target. -/
theorem test_br_largest_target :
    (committed 1024 0x728B#16 0#16 0x03#8 0xFF#8).pc = 1023#16 ∧
      (committed 1024 0x728B#16 0#16 0x03#8 0xFF#8).fault = none := by decide

/-- X12 of V-BR. -/
theorem test_br_one_beyond_faults :
    (committed 1024 0x728B#16 7#16 0x04#8 0x00#8).fault = some (.branchTargetOutOfRange 7#16 1024#16) ∧
      (committed 1024 0x728B#16 7#16 0x04#8 0x00#8).pendingFlush = false := by decide

/-- M3 and M6 of V-LS: address 63 is not -1, and cell 64 is not reached. -/
theorem test_ldr_unsigned_address :
    (stateOf (exec (.ldr 5#6 63#6) ((machine 1 Slot.empty).setDmem [(63, 0xAA#8), (64, 0x55#8)]))).reg 5#6 = 0xAA#8 ∧
      (stateOf (exec (.ldr 2#6 0#6) ((machine 1 Slot.empty).setDmem [(64, 0x55#8)]))).reg 2#6 = 0x00#8 := by decide

/-- M5 of V-LS: the snapshot is stored, not the register. -/
theorem test_str_stores_the_snapshot :
    (stateOf (exec (.str 0#6 10#6)
        ((machine 1 (slotOf 0xB00A#16 0#16 0#8 0#8)).writeReg 0#6 7#8))).cell 10 = 0#8 := by decide

/-- M4 of V-LS, beside a cell that stays. -/
theorem test_str_writes_one_cell :
    (stateOf (exec (.str 63#6 63#6)
        ((machine 1 (slotOf 0xBFFF#16 0#16 0x80#8 0#8)).setDmem [(62, 1#8), (64, 2#8)]))).dmem =
      [(62, 1#8), (63, 0x80#8), (64, 2#8)] := by decide

theorem test_reserved12_faults :
    (committed 9 0xC041#16 4#16 0#8 0#8).fault = some (.reservedOpcode 4#16 0xC041#16) ∧
      (committed 9 0xC041#16 4#16 0#8 0#8).status = .faulted := by decide

theorem test_reserved13_faults :
    (committed 9 0xD000#16 4#16 0#8 0#8).fault = some (.reservedOpcode 4#16 0xD000#16) := by decide

theorem test_reserved14_faults :
    (committed 9 0xE000#16 4#16 0#8 0#8).fault = some (.reservedOpcode 4#16 0xE000#16) := by decide

theorem test_reserved15_faults :
    (committed 9 0xFFFF#16 4#16 0#8 0#8).fault = some (.reservedOpcode 4#16 0xFFFF#16) ∧
      (FaultRecord.reservedOpcode 4#16 0xFFFF#16).code = 2 := by decide

/-! ### Memory, flags byte, fetch, decode -/

/-- Writing what an unlisted cell reads as unlists the cell. -/
theorem test_memory_stays_canonical :
    Memory.write [(3, 7#8), (9, 1#8)] 3 0#8 = [(9, 1#8)] ∧ Memory.write [(9, 1#8)] 3 7#8 = [(3, 7#8), (9, 1#8)] ∧
      Memory.wf [(9, 1#8), (3, 7#8)] = false ∧ Memory.wf [(3, 0#8)] = false ∧ Memory.wf [(2048, 1#8)] = false := by
  decide

theorem test_status_byte : (Sreg.mk true false false false true).toByte = 0b00010001#8 := by decide

/-- Data memory has 2048 cells: the operations refuse the next address. -/
theorem test_data_address_limit :
    (match memRead 2048 State.reset with
      | .ok _ => none
      | .error f => some f) = some (Fault.dataAddressOutOfRange 2048) ∧
    (match memWrite 2047 1#8 State.reset with
      | .ok s => some (s.cell 2047)
      | .error _ => none) = some 1#8 := by decide

/-- V-DEC: R-format reads two registers, I-format one, and an invalid slot is left alone. -/
theorem test_decode_step :
    let s := (State.reset.writeReg 1#6 0x11#8).writeReg 2#6 0x22#8
    let slot (w : Word) : Slot := { Slot.empty with valid := true, raw := w }
    ((slot 0x0042#16).decoded s).op1 = 0x11#8 ∧ ((slot 0x0042#16).decoded s).op2 = 0x22#8 ∧
      ((slot 0x3042#16).decoded s).op2 = 0#8 ∧ ((slot 0xC042#16).decoded s).op2 = 0#8 ∧
      Slot.empty.decoded s = Slot.empty := by
  decide

/-- F4 of V-FETCH: exhaustion is permanent although words remain. -/
theorem test_fetch_stays_exhausted :
    (fetchStep { State.reset with programSize := 4 }).fetchSlot.valid = false ∧
      (fetchStep { State.reset with programSize := 4 }).pc = 0#16 := by decide

/-- F2 and F6 of V-FETCH: exhaustion is noticed by the fetch after the last word's. -/
theorem test_fetch_notices_exhaustion_late :
    let s : State := { State.reset with programSize := 9, pc := 8#16, fetchExhausted := false }
    (fetchStep s).pc = 9#16 ∧ (fetchStep s).fetchExhausted = false ∧
      (fetchStep (fetchStep s)).fetchExhausted = true ∧ (fetchStep (fetchStep s)).pc = 9#16 := by decide

/-! ### Whole cycles -/

/-- P10: one instruction takes three cycles from reset. -/
theorem test_one_word_program :
    (ran 2 [0x3005#16]).status = .running ∧ (ran 3 [0x3005#16]).status = .halted ∧
      (ran 3 [0x3005#16]).reg 0#6 = 5#8 ∧ (ran 3 [0x3005#16]).pc = 1#16 ∧ (ran 3 [0x3005#16]).cycleCount = 4 := by
  decide +kernel

/-- V-STEP: the cycle of program P3 in which its BEQZ is taken. -/
theorem test_taken_branch_cycle :
    let s : State :=
      { machine 9 (slotOf 0x4003#16 2#16 0#8 0#8) with
        pc := 5#16, decodeSlot := slotOf 0x30C3#16 3#16 0#8 0#8
        fetchSlot := { Slot.empty with valid := true, raw := 0x3104#16, fetchPc := 4#16 } }
    let t := stateOf (step s)
    t.pc = 7#16 ∧ t.executeSlot = s.decodeSlot ∧ t.decodeSlot.valid = false ∧ t.fetchSlot.valid = false ∧
      t.pendingFlush = false ∧ t.status = .running := by
  decide

/-- A word given to `withFetchWord` is what the next step runs: MOVI R63 -1 after reset. -/
theorem test_fetch_word_runs_first :
    (stateOf (step (State.reset.withFetchWord 16 0x3FFF))).reg 63#6 = 0xFF#8 := by decide

/-- So is a reserved word, which faults. -/
theorem test_fetch_word_faults :
    (stateOf (step (State.reset.withFetchWord 16 0xC041))).fault = some (.reservedOpcode 0#16 0xC041#16) := by decide

/-! ### Witnesses: for each statement with hypotheses, a state and operands that meet them -/

/-- The result is a next state. -/
def isNext : Result → Bool
  | .next _ => true
  | .fault _ => false
  | .refused _ => false

theorem eq_next {r : Result} (h : isNext r = true) : r = .next (stateOf r) := by
  cases r with
  | next s => rfl
  | fault f => cases h
  | refused f => cases h

/-- The invariant of a state without a fault record, from what can be evaluated. -/
theorem inv_of_fields {s : State} (hf : s.fault = none)
    (h : s.dmem.wf = true ∧ s.pc.toNat ≤ s.programSize.val ∧ s.pendingFlush = false ∧
      (s.fetchSlot.valid = true → SlotFetched s s.fetchSlot) ∧
      (s.decodeSlot.valid = true → SlotFetched s s.decodeSlot ∧ SlotDecoded s.decodeSlot ∧
        SlotSnapshots s s.decodeSlot) ∧
      (s.executeSlot.valid = true → SlotFetched s s.executeSlot ∧ SlotDecoded s.executeSlot ∧
        (isRFormat s.executeSlot.opcode = false → s.executeSlot.op2 = 0#8)) ∧
      s.status = .running ∧ drained s = false ∧ 1 ≤ s.cycleCount) : s.Inv := by
  obtain ⟨h1, h2, h3, h4, h5, h6, h7, h8, h9⟩ := h
  exact
    { memory := h1, pcInProgram := h2, noFlushPending := h3, fetchFetched := h4
      decodeFetched := fun h => (h5 h).1, decodeDecoded := fun h => (h5 h).2.1
      decodeSnapshots := fun h => (h5 h).2.2, executeFetched := fun h => (h6 h).1
      executeDecoded := fun h => (h6 h).2.1, executeOp2 := fun h => (h6 h).2.2
      runningNotDrained := fun _ => h8, haltedDrained := fun h => by simp [h7] at h
      faultRecorded := by simp [h7, hf], faultInExecute := fun r h => by simp [hf] at h
      counted := h9 }

/-- P1 of the spec: MOVI R0 5, MOVI R1 3, ADD R0 R1. -/
def p1 : List Word := [0x3005#16, 0x3043#16, 0x0001#16]

/-- P4 of the spec: BR through two registers. -/
def p4 : List Word :=
  [0x3280#16, 0x32C6#16, 0x3500#16, 0x728B#16, 0x3104#16, 0x3145#16, 0x3186#16, 0x31C7#16, 0x3208#16]

/-- The first five words of P7: a BEQZ that is taken to index 3, the last index but one. -/
def p7 : List Word := [0x3041#16, 0x4041#16, 0x30C3#16, 0x3104#16, 0x3145#16]

/-- P6a of the spec: a backward branch that commits after fetch is exhausted. -/
def p6a : List Word := [0x3041#16, 0x3082#16, 0x403D#16, 0x30C3#16]

/-- A machine with an ADD in Execute. -/
def adding (a b : Byte) : State := machine 1 (slotOf 0x0001#16 0#16 a b)

/-- `adding` meets the hypotheses about the snapshots, here at the operands whose sum carries and overflows. -/
theorem witness_AddWritesSumAndFiveFlags :
    0x80#8 = (adding 0x80#8 0xFF#8).executeSlot.op1 ∧ 0xFF#8 = (adding 0x80#8 0xFF#8).executeSlot.op2 := by decide

theorem witness_SubWritesDifferenceAndFourFlags :
    0x03#8 = (adding 0x03#8 0x05#8).executeSlot.op1 ∧ 0x05#8 = (adding 0x03#8 0x05#8).executeSlot.op2 := by decide

theorem witness_MulWritesLowProductAndNZ :
    0xFF#8 = (adding 0xFF#8 0xFF#8).executeSlot.op1 ∧ 0xFF#8 = (adding 0xFF#8 0xFF#8).executeSlot.op2 := by decide

theorem witness_EorWritesExclusiveOrAndNZ :
    0x5A#8 = (adding 0x5A#8 0x5A#8).executeSlot.op1 ∧ 0x5A#8 = (adding 0x5A#8 0x5A#8).executeSlot.op2 := by decide

/-- Sums 127 and 128, differences -128 and -129: the edges of the signed range. -/
theorem witness_AddSubOverflowIsSignedOverflow :
    (127 : Int) = (adding 0x7F#8 0x00#8).executeSlot.op1.toInt ∧
      (1 : Int) = (adding 0x7F#8 0x01#8).executeSlot.op2.toInt ∧
      (-128 : Int) = (adding 0x80#8 0x01#8).executeSlot.op1.toInt ∧
      isNext (exec (.add 0#6 1#6) (adding 0x7F#8 0x00#8)) = true ∧
      isNext (exec (.add 0#6 1#6) (adding 0x7F#8 0x01#8)) = true ∧
      isNext (exec (.sub 0#6 1#6) (adding 0x80#8 0x00#8)) = true ∧
      isNext (exec (.sub 0#6 1#6) (adding 0x80#8 0x01#8)) = true := by decide

theorem witness_AndiMasksWithSignedImmediate : 0xFF#8 = (adding 0xFF#8 0#8).executeSlot.op1 := by decide

/-- Shift amounts 0 and 7, and 7 from the immediate -1. -/
theorem witness_SalShiftsLeftByMaskedImmediate :
    0xA5#8 = (adding 0xA5#8 0#8).executeSlot.op1 ∧ 0 = (BitVec.signExtend 8 8#6 &&& 7#8).toNat ∧
      7 = (BitVec.signExtend 8 7#6 &&& 7#8).toNat ∧ 7 = (BitVec.signExtend 8 63#6 &&& 7#8).toNat := by decide

theorem witness_SarShiftsRightReplicatingSign :
    0x80#8 = (adding 0x80#8 0#8).executeSlot.op1 ∧ 0 = (BitVec.signExtend 8 0#6 &&& 7#8).toNat ∧
      7 = (BitVec.signExtend 8 7#6 &&& 7#8).toNat ∧ 1 = (BitVec.signExtend 8 57#6 &&& 7#8).toNat := by decide

/-- X7 of V-BR. -/
theorem witness_BeqzOfNonzeroChangesNothing :
    (machine 8 (slotOf 0x401F#16 5#16 1#8 0#8)).executeSlot.op1 ≠ 0#8 := by decide

/-- X2 of V-BR (a negative immediate) and X8 (the last legal target). -/
theorem witness_BeqzOfZeroRedirects :
    (let s := machine 16 (slotOf 0x4039#16 9#16 0#8 0#8);
      s.executeSlot.op1 = 0#8 ∧
        ((3#16).toNat : Int) = (s.executeSlot.fetchPc.toNat + 1 + (57#6).toInt) % 65536 ∧
        (3#16).toNat < s.programSize.val) ∧
    (let s := machine 6 (slotOf 0x4000#16 4#16 0#8 0#8);
      s.executeSlot.op1 = 0#8 ∧ ((5#16).toNat : Int) = (s.executeSlot.fetchPc.toNat + 1 + (0#6).toInt) % 65536 ∧
        (5#16).toNat < s.programSize.val) := by decide

/-- X9 of V-BR (the first illegal target) and X5 (a sum that wraps). -/
theorem witness_BeqzOfZeroOutOfRangeFaults :
    (let s := machine 6 (slotOf 0x4001#16 4#16 0#8 0#8);
      s.executeSlot.op1 = 0#8 ∧ ((6#16).toNat : Int) = (s.executeSlot.fetchPc.toNat + 1 + (1#6).toInt) % 65536 ∧
        s.programSize.val ≤ (6#16).toNat) ∧
    (let s := machine 3 (slotOf 0x403B#16 0#16 0#8 0#8);
      s.executeSlot.op1 = 0#8 ∧
        ((65532#16).toNat : Int) = (s.executeSlot.fetchPc.toNat + 1 + (59#6).toInt) % 65536 ∧
        s.programSize.val ≤ (65532#16).toNat) := by decide

/-- X11 and X12 of V-BR: the last legal and the first illegal target of a full program. -/
theorem witness_BrJumpsToTheTwoSnapshots :
    (let s := machine 1024 (slotOf 0x728B#16 0#16 0x03#8 0xFF#8);
      (1023#16).toNat = s.executeSlot.op1.toNat * 256 + s.executeSlot.op2.toNat ∧
        (1023#16).toNat < s.programSize.val) ∧
    (let s := machine 1024 (slotOf 0x728B#16 0#16 0x04#8 0x00#8);
      (1024#16).toNat = s.executeSlot.op1.toNat * 256 + s.executeSlot.op2.toNat ∧
        s.programSize.val ≤ (1024#16).toNat) := by decide

/-- STR R3 63 in Execute and LDR R6 63 in Decode. -/
theorem witness_LoadSeesTheStoreBeforeIt :
    let s : State := { machine 2 (slotOf 0xB0FF#16 0#16 3#8 0#8) with decodeSlot := slotOf 0xA1BF#16 1#16 0#8 0#8 }
    s.status = .running ∧ s.executeSlot.valid = true ∧ s.executeSlot.instr = .str 3#6 63#6 ∧
      s.decodeSlot.valid = true ∧ s.decodeSlot.instr = .ldr 6#6 63#6 := by decide

/-- Opcodes 12 and 15 for the second clause, an empty Execute slot for the third. -/
theorem witness_ReservedOpcodesFaultAtCommit :
    (Instr.reserved12 1#6 1#6 = .reserved12 1#6 1#6 ∨ Instr.reserved12 1#6 1#6 = .reserved13 1#6 1#6 ∨
      Instr.reserved12 1#6 1#6 = .reserved14 1#6 1#6 ∨ Instr.reserved12 1#6 1#6 = .reserved15 1#6 1#6) ∧
    (slotOf 0xC041#16 0#16 0#8 0#8).valid = true ∧ 12#4 ≤ opcodeOf (slotOf 0xC041#16 0#16 0#8 0#8).raw ∧
    12#4 ≤ opcodeOf (slotOf 0xFFFF#16 0#16 0#8 0#8).raw ∧
    (machine 1 Slot.empty).executeSlot.valid = false ∧ isNext (step (machine 1 Slot.empty)) = true := by decide

/-- A reserved opcode in Execute. -/
theorem witness_FaultStopsTheMachineAtOnce :
    let s := machine 1 (slotOf 0xC041#16 0#16 0#8 0#8)
    s.status = .running ∧ s.executeSlot.valid = true ∧ isNext (exec s.executeSlot.instr s) = true ∧
      (stateOf (exec s.executeSlot.instr s)).status = .faulted := by decide

/-- A BEQZ, a BR and a reserved opcode that fault. -/
theorem witness_OnlyTwoConditionsFault :
    ∀ e ∈ [slotOf 0x4001#16 4#16 0#8 0#8, slotOf 0x728B#16 0#16 0#8 6#8, slotOf 0xF000#16 0#16 0#8 0#8],
      (machine 6 e).status = .running ∧ isNext (step (machine 6 e)) = true ∧
        (stateOf (step (machine 6 e))).status = .faulted := by decide

/-- A halted and a faulted machine. -/
theorem witness_StepsAlwaysAnswerAndFinalStatesAbsorb :
    State.reset.status ≠ .running ∧ (committed 1 0xC041#16 0#16 0#8 0#8).status ≠ .running := by decide

/-- An instruction that completes and one that faults. -/
theorem witness_StepRunsTheDecodedInstruction :
    (let s := machine 1 (slotOf 0x0001#16 0#16 1#8 1#8);
      s.status = .running ∧ s.executeSlot.valid = true ∧ SlotDecoded s.executeSlot ∧
        decode s.executeSlot.raw = .add 0#6 1#6 ∧ isNext (exec (.add 0#6 1#6) s) = true ∧
        (stateOf (exec (.add 0#6 1#6) s)).status ≠ .faulted) ∧
    (let s := machine 1 (slotOf 0xC041#16 0#16 1#8 1#8);
      s.status = .running ∧ s.executeSlot.valid = true ∧ SlotDecoded s.executeSlot ∧
        decode s.executeSlot.raw = .reserved12 1#6 1#6 ∧ isNext (exec (.reserved12 1#6 1#6) s) = true ∧
        (stateOf (exec (.reserved12 1#6 1#6) s)).status = .faulted) := by decide

/-- P1 right after reset: its three words are still to run. -/
theorem witness_WordAtPcRunsInTheFourthStep :
    let s := ran 0 p1
    s.Inv ∧ s.status = .running ∧ s.fetchExhausted = false ∧ s.pc.toNat < s.programSize.val ∧
      (s.executeSlot.valid = true → PlainOpcode s.executeSlot.opcode) ∧
      (s.decodeSlot.valid = true → PlainOpcode s.decodeSlot.opcode) ∧
      (s.fetchSlot.valid = true → PlainOpcode (opcodeOf s.fetchSlot.raw)) ∧
      Instr.movi 1#6 3#6 = decode (s.imemWord s.pc) :=
  ⟨inv_of_fields (by decide +kernel) (by decide +kernel), by decide +kernel⟩

/-- A cycle that commits nothing and fetches, one that commits and fetches no more, and one that faults. -/
theorem witness_CycleIsTheSixStepsInOrder :
    (let s := ran 0 p1;
      s.status = .running ∧ CommitsTo s s ∧
        (true = true ↔ s.pc.toNat < s.programSize.val ∧ s.fetchExhausted = false) ∧ s.fetchSlot.valid = true ∧
        s.status ≠ .faulted) ∧
    (let s := ran 2 p1;
      let u := stateOf (exec s.executeSlot.instr s);
      s.status = .running ∧ CommitsTo s u ∧
        (false = true ↔ u.pc.toNat < s.programSize.val ∧ s.fetchExhausted = false) ∧ u.status ≠ .faulted) ∧
    (let s := machine 1 (slotOf 0xC041#16 0#16 1#8 1#8);
      let u := stateOf (exec s.executeSlot.instr s);
      s.status = .running ∧ CommitsTo s u ∧
        (true = true ↔ u.pc.toNat < s.programSize.val ∧ s.fetchExhausted = false) ∧ u.status = .faulted) :=
  ⟨⟨by decide +kernel, .inl ⟨by decide +kernel, rfl⟩, by decide +kernel⟩,
    ⟨by decide +kernel, .inr ⟨by decide +kernel, eq_next (by decide +kernel)⟩, by decide +kernel⟩,
    ⟨by decide, .inr ⟨by decide, eq_next (by decide)⟩, by decide⟩⟩

/-- P1 before its first commit: the ADD that reads R1 enters Execute one cycle after the MOVI that writes it. -/
theorem witness_DistanceOneReadsOldDistanceTwoReadsNew :
    let s := ran 3 p1
    let s' := ran 2 p1
    s.Inv ∧ s.status = .running ∧ isNext (step s) = true ∧ (stateOf (step s)).status ≠ .faulted ∧
      (stateOf (step s)).executeSlot.valid = true ∧ isRFormat (stateOf (step s)).executeSlot.opcode = true ∧
      s'.Inv ∧ s'.status = .running ∧ isNext (step s') = true ∧ (stateOf (step s')).status ≠ .faulted ∧
      (stateOf (step s')).decodeSlot.valid = true ∧ isRFormat (stateOf (step s')).decodeSlot.opcode = true :=
  ⟨inv_of_fields (by decide +kernel) (by decide +kernel), by decide +kernel, by decide +kernel, by decide +kernel,
    by decide +kernel, by decide +kernel, inv_of_fields (by decide +kernel) (by decide +kernel), by decide +kernel⟩

theorem witness_RegistersChangeOnlyAtTheDestination :
    isNext (step (adding 1#8 2#8)) = true ∧
      (stateOf (step (adding 1#8 2#8))).reg 0#6 ≠ (adding 1#8 2#8).reg 0#6 := by decide

/-- ADD changes C, SUB changes V and S, EOR changes Z. -/
theorem witness_FlagsChangeOnlyForTheirOpcodes :
    (let s := adding 1#8 2#8;
      isNext (step s) = true ∧ (stateOf (step s)).sreg.c ≠ s.sreg.c ∧ s.status = .running ∧
        s.executeSlot.valid = true ∧ s.executeSlot.opcode = 0#4) ∧
    (let s := machine 1 (slotOf 0x1083#16 0#16 1#8 1#8);
      isNext (step s) = true ∧ (stateOf (step s)).sreg.v ≠ s.sreg.v ∧ (stateOf (step s)).sreg.s ≠ s.sreg.s ∧
        s.status = .running ∧ s.executeSlot.valid = true ∧ s.executeSlot.opcode = 1#4) ∧
    (let s := machine 1 (slotOf 0x628B#16 0#16 1#8 1#8);
      isNext (step s) = true ∧ (stateOf (step s)).sreg.z ≠ s.sreg.z) := by decide

theorem witness_StatusByteUpperBitsAreZero : 5 ≤ 5 ∧ 5 ≤ 7 := by decide

/-- A STR to cell 63; a memory that differs only in cell 64; a run. -/
theorem witness_OnlyTheFirst64CellsAreReached :
    let s := machine 1 (slotOf 0xBFFF#16 0#16 0x80#8 0#8)
    isNext (step s) = true ∧ (stateOf (step s)).cell 63 ≠ s.cell 63 ∧
      (∀ a, a < 64 → Memory.read [(64, 0x55#8)] a = s.cell a) ∧ isNext (core.run 2 s) = true ∧ 64 ≤ 64 := by decide

theorem witness_ProgramIsImmutable : isNext (core.run 2 (ran 0 p1)) = true := by decide +kernel

/-- A fetch; a taken branch that fetches at its target; a taken branch after fetch is exhausted. -/
theorem witness_PcMovesOnlyByFetchOrBranch :
    ∀ s ∈ [ran 0 p1, ran 5 p4, ran 4 p6a], isNext (step s) = true ∧ (stateOf (step s)).pc ≠ s.pc := by
  decide +kernel

/-- A running machine with fetch exhausted; a halted one; a step that faults. -/
theorem witness_ExhaustionIsStickyAndCyclesCount :
    (isNext (step (ran 4 p6a)) = true ∧ (ran 4 p6a).fetchExhausted = true ∧ (ran 4 p6a).status = .running ∧
      (stateOf (step (ran 4 p6a))).status ≠ .faulted) ∧
    (isNext (step State.reset) = true ∧ State.reset.status ≠ .running) ∧
    (isNext (step (machine 1 (slotOf 0xC041#16 0#16 0#8 0#8))) = true ∧
      (stateOf (step (machine 1 (slotOf 0xC041#16 0#16 0#8 0#8)))).status = .faulted) := by decide +kernel

/-- A taken BEQZ in Execute redirects (R120, R122). -/
theorem exec_beqz_taken {s : State} {d : RegIdx} {imm : Field} {target : Word}
    (hi : s.executeSlot.instr = .beqz d imm)
    (h : op1 s = 0#8 ∧ beqzTarget imm s = target ∧ target.toNat < s.programSize.val) :
    exec s.executeSlot.instr s = .next (s.redirect target) := by
  obtain ⟨h0, rfl, hr⟩ := h
  simp only [hi, exec, execBeqz, if_pos h0, resolveBranch]
  rw [if_neg (by omega)]

/-- P7 cut to five words, in the cycle of its branch: the target is the last index but one. -/
theorem witness_TakenBranchResumesOnePastItsTarget :
    let s := ran 3 p7
    s.Inv ∧ s.status = .running ∧ s.fetchExhausted = false ∧ s.executeSlot.valid = true ∧
      exec s.executeSlot.instr s = .next (s.redirect 3#16) ∧ s.decodeSlot.valid = true ∧
      PlainOpcode s.decodeSlot.opcode ∧ s.fetchSlot.valid = true ∧ (3#16).toNat + 1 < s.programSize.val :=
  ⟨inv_of_fields (by decide +kernel) (by decide +kernel), by decide +kernel, by decide +kernel, by decide +kernel,
    exec_beqz_taken (d := 1#6) (imm := 1#6) (by decide +kernel) (by decide +kernel), by decide +kernel⟩

/-- P6a in the cycle of its branch, with a word behind it and with none. -/
theorem witness_LateBranchOnlyMovesPc :
    (let s := ran 4 p6a;
      s.status = .running ∧ s.fetchExhausted = true ∧ s.executeSlot.valid = true ∧
        exec s.executeSlot.instr s = .next (s.redirect 0#16) ∧ s.decodeSlot.valid = true ∧
        PlainOpcode s.decodeSlot.opcode) ∧
    (let s := ran 4 (p6a.take 3);
      s.status = .running ∧ s.fetchExhausted = true ∧ s.executeSlot.valid = true ∧
        exec s.executeSlot.instr s = .next (s.redirect 0#16) ∧
        (s.decodeSlot.valid = true → PlainOpcode s.decodeSlot.opcode)) :=
  ⟨⟨by decide +kernel, by decide +kernel, by decide +kernel,
      exec_beqz_taken (d := 0#6) (imm := 61#6) (by decide +kernel) (by decide +kernel), by decide +kernel⟩,
    ⟨by decide +kernel, by decide +kernel, by decide +kernel,
      exec_beqz_taken (d := 0#6) (imm := 61#6) (by decide +kernel) (by decide +kernel), by decide +kernel⟩⟩

theorem witness_ExhaustedMachineStopsWithinThreeCycles :
    (ran 4 p6a).fetchExhausted = true ∧ (ran 4 p6a).status = .running := by decide +kernel

/-- P1 after reset (two words still to fetch), and P10 after reset (none, and one just fetched). -/
theorem witness_StraightLineCodeHaltsOnTime :
    (let s := ran 0 p1;
      s.Inv ∧ s.status = .running ∧ s.fetchExhausted = false ∧
        (∀ w : Word, w.toNat < s.programSize.val → PlainOpcode (opcodeOf (s.imemWord w))) ∧
        (s.pc.toNat < s.programSize.val ∨ s.fetchSlot.valid = true) ∧ 5 = s.programSize.val - s.pc.toNat + 3) ∧
    (let s := ran 0 [0x3005#16];
      s.Inv ∧ s.status = .running ∧ s.fetchExhausted = false ∧
        (∀ w : Word, w.toNat < s.programSize.val → PlainOpcode (opcodeOf (s.imemWord w))) ∧
        (s.pc.toNat < s.programSize.val ∨ s.fetchSlot.valid = true) ∧ 3 = s.programSize.val - s.pc.toNat + 3) := by
  have key : ∀ (s : State) (n : Nat), s.programSize.val ≤ n →
      (∀ i : Fin n, PlainOpcode (opcodeOf (s.imemWord (BitVec.ofNat 16 i)))) →
      ∀ w : Word, w.toNat < s.programSize.val → PlainOpcode (opcodeOf (s.imemWord w)) := by
    intro s n hn h w hw
    have := h ⟨w.toNat, by omega⟩
    simpa using this
  exact ⟨⟨inv_of_fields (by decide +kernel) (by decide +kernel), by decide +kernel, by decide +kernel,
      key _ 3 (by decide +kernel) (by decide +kernel), by decide +kernel⟩,
    ⟨inv_of_fields (by decide +kernel) (by decide +kernel), by decide +kernel, by decide +kernel,
      key _ 1 (by decide +kernel) (by decide +kernel), by decide +kernel⟩⟩

theorem witness_EveryStepKeepsTheInvariant : (ran 3 p7).Inv ∧ isNext (step (ran 3 p7)) = true :=
  ⟨inv_of_fields (by decide +kernel) (by decide +kernel), by decide +kernel⟩

theorem witness_ResetOfAnyProgramHasTheInvariant :
    Memory.wf [(0, 1#8), (2047, 0xFF#8)] = true := by decide

/-- A program and the empty program. -/
theorem witness_ResetLeavesTheTabulatedState :
    1 ≤ (machine 1 Slot.empty).programSize.val ∧ 1 ≤ (machine 1024 Slot.empty).programSize.val ∧
      State.reset.programSize.val = 0 := by decide

/-- A program that fills instruction memory, with its last index, and one word too many. -/
theorem witness_LoadPlacesTheProgram :
    (List.replicate 1024 0x3FC0#16).length ≤ 1024 ∧ (1023#16).toNat < (List.replicate 1024 0x3FC0#16).length ∧
      1024 < (List.replicate 1025 0x3FC0#16).length := by
  simp only [List.length_replicate]; decide

/-- A line that assembles, and the edges of the operand ranges. -/
theorem witness_AssembledWordsAreWellFormed :
    assembleLine ⟨"STR", [.reg 63, .int 63]⟩ = .ok 0xBFFF#16 ∧ 63 < 64 ∧ (-32 : Int) ≤ -32 ∧ (31 : Int) ≤ 31 :=
  ⟨rfl, by decide⟩

/-- A memory with another word right behind a program of one word. -/
theorem witness_WordsBeyondTheProgramAreNeverRead :
    let s := ran 0 [0x3005#16]
    let m : Vector Word 1024 := s.imem.set 1 0xFFFF#16
    (∀ i, i < s.programSize.val → m[i]? = s.imem[i]?) ∧ isNext (step s) = true ∧ m[1] ≠ s.imem[1] := by
  decide +kernel

theorem witness_FlagsAreNeverRead : isNext (core.run 5 (ran 0 p1)) = true := by decide +kernel

/-- Two states that differ in the fields of an empty Execute slot. -/
theorem witness_InvalidSlotFieldsAreNeverRead :
    let s := machine 1 Slot.empty
    let s' := machine 1 { Slot.empty with op1 := 0x55#8, opcode := 12#4 }
    s.meaning = s'.meaning ∧ s.executeSlot ≠ s'.executeSlot ∧ isNext (core.run 3 s) = true :=
  ⟨rfl, by decide⟩

end Sys2Proof.Tests
end

/-! PROOF. The register that an instruction writes, and R11: no step changes any other. -/

namespace Sys2Proof.Machine

/-- The register that an instruction writes at Commit, if it writes one (R11). -/
def destination : Instr → Option RegIdx
  | .add d _ | .sub d _ | .mul d _ | .movi d _ | .andi d _ | .eor d _ | .sal d _ | .sar d _ | .ldr d _ => some d
  | .beqz _ _ | .br _ _ | .str _ _
  | .reserved12 _ _ | .reserved13 _ _ | .reserved14 _ _ | .reserved15 _ _ => none

/-- The nine opcodes that write a register: ADD, SUB, MUL, MOVI, ANDI, EOR, SAL, SAR and LDR (R11). -/
abbrev WritesRegister (op : Opcode) : Prop :=
  op = 0#4 ∨ op = 1#4 ∨ op = 2#4 ∨ op = 3#4 ∨ op = 5#4 ∨ op = 6#4 ∨ op = 8#4 ∨ op = 9#4 ∨ op = 10#4

/-! ### The execute unit -/

/-- Branch resolution writes no register, whether it redirects or faults (R122). -/
@[simp] theorem resolveBranch_reg (target : Word) (s : State) (i : RegIdx) :
    (resolveBranch target s).reg i = s.reg i := by
  rcases resolveBranch_cases target s with ⟨_, e⟩ | ⟨_, e⟩ <;> simp [e]

theorem writeReg_setSreg_reg_other {s t : State} {d i : RegIdx} {v : Byte} {f : Sreg}
    (h : Host.Outcome.next ((s.writeReg d v).setSreg f) = (.next t : Result)) (hi : some d ≠ some i) :
    t.reg i = s.reg i := by
  injection h with h
  subst h
  exact writeReg_reg_other s v fun e => hi (congrArg some e.symm)

/-- An instruction leaves every register as it was but its destination. -/
theorem exec_reg_of_ne_destination {k : Instr} {s t : State} {i : RegIdx} (h : exec k s = .next t)
    (hi : destination k ≠ some i) : t.reg i = s.reg i := by
  cases k with
  | add | sub | mul | andi | eor | sal | sar => exact writeReg_setSreg_reg_other h hi
  | movi d imm => exact writeReg_setSreg_reg_other (f := s.sreg) h hi
  | ldr d addr => exact writeReg_setSreg_reg_other (f := s.sreg) ((execLdr_eq d addr s).symm.trans h) hi
  | beqz d imm =>
    simp only [exec, execBeqz] at h
    split at h
    all_goals
      injection h with h
      simp [← h]
  | br hi lo =>
    injection h with h
    simp [← h]
  | str d addr =>
    injection (execStr_eq d addr s).symm.trans h with h
    simp [← h]
  | reserved12 | reserved13 | reserved14 | reserved15 =>
    injection h with h
    simp [← h, raiseReserved]

/-! ### The opcode -/

/-- An opcode selects an instruction with a destination exactly when it is one of the nine, and the destination is
`field1`. -/
theorem destination_ofFields (op : Opcode) (f1 f2 : Field) (i : RegIdx) :
    destination (Instr.ofFields op f1 f2) = some i ↔ i = f1 ∧ WritesRegister op := by
  have hop : op = BitVec.ofNat 4 op.toNat := by simp
  have hlt : op.toNat < 16 := op.isLt
  generalize op.toNat = n at hop hlt
  subst hop
  interval_cases n <;> simp [Instr.ofFields, destination, WritesRegister, eq_comm]

/-! ### A step -/

/-- A register that a step changes was changed by the execute unit at Commit: steps 2 to 6 write no register, and a
machine that is not Running changes nothing (R33, R149). -/
theorem exec_changes_reg_of_step {s t : State} {i : RegIdx} (h : step s = .next t) (hne : t.reg i ≠ s.reg i) :
    s.status = .running ∧ s.executeSlot.valid = true ∧
      ∃ u, exec s.executeSlot.instr s = .next u ∧ u.reg i ≠ s.reg i := by
  rcases step_cases h with ⟨_, rfl⟩ | ⟨hrun, u, hcommit, hafter⟩
  · exact absurd rfl hne
  · have htu : t.reg i = u.reg i := by
      rcases hafter with ⟨_, rfl⟩ | ⟨_, rfl⟩
      · rfl
      · exact finishCycle_reg u i
    rw [htu] at hne
    rcases hcommit with ⟨_, rfl⟩ | ⟨hvalid, hexec, _⟩
    · exact absurd rfl hne
    · exact ⟨hrun, hvalid, u, hexec, hne⟩

/-- Settles O27: what changes a register is an instruction at Commit (`exec_changes_reg_of_step`), it changes its
destination only (`exec_reg_of_ne_destination`), and only the nine opcodes have one (`destination_ofFields`). -/
theorem registersChangeOnlyAtTheDestination : Obligations.RegistersChangeOnlyAtTheDestination := by
  intro s t i h hne
  obtain ⟨hrun, hvalid, u, hexec, hchange⟩ := exec_changes_reg_of_step h hne
  have hdest : destination s.executeSlot.instr = some i :=
    by_contra fun hd => hchange (exec_reg_of_ne_destination hexec hd)
  obtain ⟨hfield, hop⟩ := (destination_ofFields ..).mp hdest
  exact ⟨hrun, hvalid, hfield, hop⟩

end Sys2Proof.Machine

/-! PROOF. The cell that an instruction stores to, and R42: a step reads and writes data cells 0 to 63 only. -/

namespace Sys2Proof.Machine

/-- The address that an instruction stores to at Commit, if it stores (R131). -/
def storeAddress : Instr → Option Field
  | .str _ addr => some addr
  | _ => none

/-- Data memory after `v` is stored to the address, if there is one. -/
def Memory.storeAt (v : Byte) (m : Memory) : Option Field → Memory
  | none => m
  | some addr => m.write addr.toNat v

/-- `m` holds cells 0 to 63 of `low`, which a 6-bit address can name, and the cells from 64 on of `high` (R42). -/
structure Memory.Joins (m low high : Memory) : Prop where
  reached : ∀ a, a < 64 → m.read a = low.read a
  beyond : ∀ a, 64 ≤ a → m.read a = high.read a

/-! ### A store -/

/-- A store changes only the cell that its 6-bit address names. -/
theorem Memory.address_of_storeAt_changes {m : Memory} {v : Byte} {target : Option Field} {a : Nat}
    (h : (m.storeAt v target).read a ≠ m.read a) : ∃ addr, target = some addr ∧ a = addr.toNat := by
  cases target with
  | none => exact absurd rfl h
  | some addr => exact ⟨addr, rfl, by_contra fun ha => h (Memory.read_write_other m v ha)⟩

/-- The same store to `m` and to `low`: a 6-bit address does not name a cell from 64 on. -/
theorem Memory.Joins.storeAt {m low high : Memory} (h : m.Joins low high) (v : Byte) (target : Option Field) :
    (m.storeAt v target).Joins (low.storeAt v target) high := by
  cases target with
  | none => exact h
  | some addr =>
    refine ⟨fun a ha => ?_, fun a ha => ?_⟩
    · by_cases e : a = addr.toNat
      · simp [Memory.storeAt, e]
      · exact (read_write_other m v e).trans ((h.reached a ha).trans (read_write_other low v e).symm)
    · exact (read_write_other m v (by omega)).trans (h.beyond a ha)

/-- An opcode selects an instruction that stores exactly when it is STR's, and the address is `field2`. -/
theorem storeAddress_ofFields (op : Opcode) (f1 f2 addr : Field) :
    storeAddress (Instr.ofFields op f1 f2) = some addr ↔ addr = f2 ∧ op = 11#4 := by
  have hop : op = BitVec.ofNat 4 op.toNat := by simp
  have hlt : op.toNat < 16 := op.isLt
  generalize op.toNat = n at hop hlt
  subst hop
  interval_cases n <;> simp [Instr.ofFields, storeAddress, eq_comm]

/-! ### The execute unit with data memory replaced -/

theorem resolveBranch_setDmem (target : Word) (s : State) (m : Memory) :
    resolveBranch target (s.setDmem m) = (resolveBranch target s).setDmem m := by
  simp only [resolveBranch, apply_ite (State.setDmem m)]
  rfl

/-- An instruction reads data memory only at a 6-bit address, so another memory with the same cells 0 to 63 leads to the
same state but for data memory, to which the same store is made. -/
theorem exec_setDmem {i : Instr} {s t : State} {m : Memory} (hm : ∀ a, a < 64 → m.read a = s.cell a)
    (h : exec i s = .next t) :
    exec i (s.setDmem m) = .next (t.setDmem (m.storeAt (op1 s) (storeAddress i))) := by
  cases i with
  | add | sub | mul | movi | andi | eor | sal | sar | reserved12 | reserved13 | reserved14 | reserved15 =>
    injection h with h
    subst h
    rfl
  | beqz d imm =>
    by_cases h0 : op1 s = 0#8
    · have ht : resolveBranch (beqzTarget imm s) s = t := by simpa [exec, execBeqz, h0] using h
      subst ht
      exact (if_pos h0).trans (congrArg _ (resolveBranch_setDmem ..))
    · have ht : s = t := by simpa [exec, execBeqz, h0] using h
      subst ht
      exact if_neg h0
  | br hi lo =>
    injection h with h
    subst h
    exact congrArg _ (resolveBranch_setDmem ..)
  | ldr d addr =>
    injection (execLdr_eq d addr s).symm.trans h with h
    subst h
    have hcell : (s.setDmem m).cell addr.toNat = s.cell addr.toNat := hm addr.toNat addr.isLt
    exact (execLdr_eq d addr (s.setDmem m)).trans (by rw [hcell]; rfl)
  | str d addr =>
    injection (execStr_eq d addr s).symm.trans h with h
    subst h
    exact execStr_eq d addr (s.setDmem m)

/-- All that an instruction does to data memory. -/
theorem exec_dmem {i : Instr} {s t : State} (h : exec i s = .next t) :
    t.dmem = s.dmem.storeAt (op1 s) (storeAddress i) := by
  have hself : exec i s = .next (t.setDmem (s.dmem.storeAt (op1 s) (storeAddress i))) :=
    exec_setDmem (m := s.dmem) (fun _ _ => rfl) h
  injection h.symm.trans hself with ht
  exact congrArg State.dmem ht

/-! ### A cycle with data memory replaced -/

theorem fetchStep_setDmem (s : State) (m : Memory) : fetchStep (s.setDmem m) = (fetchStep s).setDmem m := by
  simp only [fetchStep, apply_ite (State.setDmem m)]
  rfl

theorem flushStep_setDmem (s : State) (m : Memory) : flushStep (s.setDmem m) = (flushStep s).setDmem m := by
  simp only [flushStep, apply_ite (State.setDmem m)]
  rfl

theorem terminateCheck_setDmem (s : State) (m : Memory) :
    terminateCheck (s.setDmem m) = (terminateCheck s).setDmem m := by
  simp only [terminateCheck, apply_ite (State.setDmem m)]
  rfl

/-- Steps 2 to 6 do not use data memory. -/
theorem finishCycle_setDmem (s : State) (m : Memory) : finishCycle (s.setDmem m) = (finishCycle s).setDmem m := by
  have front : decodeStage (advance (s.setDmem m)) = (decodeStage (advance s)).setDmem m := rfl
  rw [finishCycle, front, fetchStep_setDmem, flushStep_setDmem, terminateCheck_setDmem]
  rfl

theorem afterCommit_setDmem (s : State) (m : Memory) : afterCommit (s.setDmem m) = (afterCommit s).setDmem m := by
  simp only [afterCommit, setDmem_status, finishCycle_setDmem]
  exact (apply_ite (State.setDmem m) _ _ _).symm

@[simp] theorem afterCommit_dmem (s : State) : (afterCommit s).dmem = s.dmem := by
  unfold afterCommit
  split
  · rfl
  · exact finishCycle_dmem s

/-- Commit with data memory replaced by one that agrees on cells 0 to 63. -/
theorem commit_setDmem {s u : State} {m : Memory} (hm : ∀ a, a < 64 → m.read a = s.cell a)
    (h : commit s = .next u) : ∃ m', commit (s.setDmem m) = .next (u.setDmem m') ∧ m'.Joins u.dmem m := by
  have hjoin : m.Joins s.dmem m := ⟨hm, fun _ _ => rfl⟩
  by_cases hv : s.executeSlot.valid = true
  · have hexec : exec s.executeSlot.instr s = .next u := (if_pos hv).symm.trans h
    rw [exec_dmem hexec]
    exact ⟨_, (if_pos hv).trans (exec_setDmem hm hexec), hjoin.storeAt ..⟩
  · injection (if_neg hv).symm.trans h with hu
    subst hu
    exact ⟨m, if_neg hv, hjoin⟩

/-- A step with data memory replaced by one that agrees on cells 0 to 63. -/
theorem step_setDmem {s t : State} {m : Memory} (hm : ∀ a, a < 64 → m.read a = s.cell a) (h : step s = .next t) :
    ∃ m', step (s.setDmem m) = .next (t.setDmem m') ∧ m'.Joins t.dmem m := by
  by_cases hrun : s.status = .running
  · obtain ⟨u, hu, _⟩ := commit_effect s
    obtain ⟨m', hu', hjoin⟩ := commit_setDmem hm hu
    injection (step_of_commit hrun hu).symm.trans h with ht
    subst ht
    refine ⟨m', ?_, by simpa using hjoin⟩
    rw [← afterCommit_setDmem]
    exact step_of_commit (s := s.setDmem m) hrun hu'
  · injection (step_of_not_running hrun).symm.trans h with ht
    subst ht
    exact ⟨m, step_of_not_running (s := s.setDmem m) hrun, hm, fun _ _ => rfl⟩

/-! ### What a step and a run change -/

/-- A cell that a step changes is the one that the STR at Commit stores to: steps 2 to 6 write no cell. -/
theorem storeAddress_of_step_changes_cell {s t : State} {a : Nat} (h : step s = .next t) (hne : t.cell a ≠ s.cell a) :
    s.status = .running ∧ s.executeSlot.valid = true ∧
      ∃ addr, storeAddress s.executeSlot.instr = some addr ∧ a = addr.toNat := by
  rcases step_cases h with ⟨_, rfl⟩ | ⟨hrun, u, hcommit, hafter⟩
  · exact absurd rfl hne
  · have hmem : t.dmem = u.dmem := by
      rcases hafter with ⟨_, rfl⟩ | ⟨_, rfl⟩
      · rfl
      · exact finishCycle_dmem u
    rcases hcommit with ⟨_, rfl⟩ | ⟨hvalid, hexec, _⟩
    · exact absurd (congrArg (Memory.read · a) hmem) hne
    · rw [State.cell, hmem, exec_dmem hexec] at hne
      exact ⟨hrun, hvalid, Memory.address_of_storeAt_changes hne⟩

/-- No step changes a cell from 64 on (R42). -/
theorem step_cell_beyond {s t : State} {a : Nat} (h : step s = .next t) (ha : 64 ≤ a) : t.cell a = s.cell a := by
  by_contra hne
  obtain ⟨_, _, addr, _, haddr⟩ := storeAddress_of_step_changes_cell h hne
  omega

/-- Settles O30: a changed cell is the one that STR names (`storeAddress_of_step_changes_cell`), a step commutes with
replacing memory beyond cell 63 (`step_setDmem`), and runs keep what every step keeps (`step_cell_beyond`). -/
theorem onlyTheFirst64CellsAreReached : Obligations.OnlyTheFirst64CellsAreReached := by
  refine ⟨fun s t a h hne => ?_, fun s t m hm h => ?_, fun s t n a h ha => ?_⟩
  · obtain ⟨hrun, hvalid, addr, hstore, rfl⟩ := storeAddress_of_step_changes_cell h hne
    obtain ⟨rfl, hop⟩ := (storeAddress_ofFields ..).mp hstore
    exact ⟨hrun, hvalid, hop, rfl, s.executeSlot.field2.isLt⟩
  · obtain ⟨m', hstep, hjoin⟩ := step_setDmem hm h
    exact ⟨t.setDmem m', hstep, rfl, hjoin.reached, hjoin.beyond⟩
  · exact run_keeps (P := fun u => u.cell a = s.cell a)
      (fun _ _ hu hstep => (step_cell_beyond hstep ha).trans hu) rfl h

end Sys2Proof.Machine

/-! PROOF. ADD, SUB, MUL and EOR: what an ALU instruction leaves unchanged (R100), what its flags say (R17), and the
four rules R101 to R104. -/

namespace Sys2Proof.Machine

/-! ### The commit of an ALU instruction -/

/-- The outputs of an ALU instruction are `x[d]` and the status register, nothing else (R100). -/
theorem exec_of_commitAlu {i : Instr} {d : RegIdx} {r : Byte} {f : Sreg} {s : State}
    (h : exec i s = commitAlu d r f s) :
    ∃ t, exec i s = .next t ∧ t.reg d = r ∧ t.sreg = f ∧
      RegsSameBut d s t ∧ CellsSame s t ∧ FlowSame s t ∧ RunSame s t ∧ ControlSame s t := by
  refine ⟨(s.writeReg d r).setSreg f, h, by simp, rfl, fun j hj => ?_, ?_⟩
  · exact writeReg_reg_other s r hj
  · simp [CellsSame, FlowSame, RunSame, ControlSame]

/-! ### The flags (R17) -/

/-- Bit 7 of a byte is its part from 128 on. -/
theorem flagN_iff (r : Byte) : flagN r = true ↔ 128 ≤ r.toNat := by
  have hmsb : flagN r = r.msb := (BitVec.msb_eq_getLsbD_last r).symm
  simp [hmsb, BitVec.msb_eq_decide]

theorem flagZ_iff (r : Byte) : flagZ r = true ↔ r = 0#8 := beq_iff_eq

theorem carryOfAdd_iff (a b : Byte) : carryOfAdd a b = true ↔ 255 < a.toNat + b.toNat := decide_eq_true_iff

theorem overflowOfAdd_iff (a b r : Byte) :
    overflowOfAdd a b r = true ↔ a.getLsbD 7 = b.getLsbD 7 ∧ r.getLsbD 7 ≠ a.getLsbD 7 := by
  simp [overflowOfAdd]

theorem overflowOfSub_iff (a b r : Byte) :
    overflowOfSub a b r = true ↔ a.getLsbD 7 ≠ b.getLsbD 7 ∧ r.getLsbD 7 ≠ a.getLsbD 7 := by
  simp [overflowOfSub]

/-! ### The results -/

theorem addResult_toNat (a b : Byte) : (addResult a b).toNat = (a.toNat + b.toNat) % 256 :=
  BitVec.toNat_ofNat ..

/-- The wrapped difference in natural numbers, where 256 keeps the subtraction exact (R102). -/
theorem subResult_toNat (a b : Byte) : (subResult a b).toNat = (a.toNat + 256 - b.toNat) % 256 := by
  have hb : b.toNat < 256 := b.isLt
  simp only [subResult, BitVec.toNat_ofInt]
  omega

theorem mulResult_toNat (a b : Byte) : (mulResult a b).toNat = (a.toNat * b.toNat) % 256 :=
  BitVec.toNat_ofNat ..

/-! ### The instructions -/

/-- Settles O3: the commit of the sum (`addResult_toNat`) with the five flags that `Sreg.afterAdd` assigns. -/
theorem addWritesSumAndFiveFlags : Obligations.AddWritesSumAndFiveFlags := by
  rintro d r s _ _ rfl rfl
  refine ⟨decode_of_base 0#4 d r rfl, ?_⟩
  obtain ⟨t, ht, hd, hf, frame⟩ := exec_of_commitAlu (i := .add d r) (s := s) rfl
  refine ⟨t, ht, ?_⟩
  rw [hd, hf]
  exact ⟨addResult_toNat .., carryOfAdd_iff .., overflowOfAdd_iff .., flagN_iff _, flagZ_iff _, Bool.xor_iff_ne, frame⟩

/-- Settles O4: the commit of the difference (`subResult_toNat`); `Sreg.afterSub` keeps C. -/
theorem subWritesDifferenceAndFourFlags : Obligations.SubWritesDifferenceAndFourFlags := by
  rintro d r s _ _ rfl rfl
  refine ⟨decode_of_base 1#4 d r rfl, ?_⟩
  obtain ⟨t, ht, hd, hf, frame⟩ := exec_of_commitAlu (i := .sub d r) (s := s) rfl
  refine ⟨t, ht, ?_⟩
  rw [hd, hf]
  exact ⟨subResult_toNat .., rfl, overflowOfSub_iff .., flagN_iff _, flagZ_iff _, Bool.xor_iff_ne, frame⟩

/-- Settles O5: the commit of the low product byte (`mulResult_toNat`); `Sreg.afterLogic` keeps C, V and S. -/
theorem mulWritesLowProductAndNZ : Obligations.MulWritesLowProductAndNZ := by
  rintro d r s _ _ rfl rfl
  refine ⟨decode_of_base 2#4 d r rfl, ?_⟩
  obtain ⟨t, ht, hd, hf, frame⟩ := exec_of_commitAlu (i := .mul d r) (s := s) rfl
  refine ⟨t, ht, ?_⟩
  rw [hd, hf]
  exact ⟨mulResult_toNat .., rfl, rfl, rfl, flagN_iff _, flagZ_iff _, frame⟩

/-- Settles O6: the commit of the exclusive or, which is 0 exactly for equal operands; `Sreg.afterLogic` keeps C, V
and S. -/
theorem eorWritesExclusiveOrAndNZ : Obligations.EorWritesExclusiveOrAndNZ := by
  rintro d r s _ _ rfl rfl
  refine ⟨decode_of_base 6#4 d r rfl, ?_⟩
  obtain ⟨t, ht, hd, hf, frame⟩ := exec_of_commitAlu (i := .eor d r) (s := s) rfl
  have hz : flagZ (op1 s ^^^ op2 s) = true ↔ op1 s = op2 s := (flagZ_iff _).trans BitVec.xor_eq_zero_iff
  refine ⟨t, ht, ?_⟩
  rw [hd, hf]
  exact ⟨fun _ => BitVec.getLsbD_xor, rfl, rfl, rfl, flagN_iff _, hz, frame⟩

end Sys2Proof.Machine

/-! PROOF. MOVI, ANDI, SAL and SAR: the signed immediate and the shift amount bit by bit (R64, R66), the two shifts as
arithmetic, what the instructions that assign N and Z only do, and the four rules R110 to R113. -/

namespace Sys2Proof.Machine

/-! ### The immediate operand -/

/-- The signed immediate in numbers: a field from 32 on is negative (R64). -/
theorem imm8_toInt (f : Field) :
    (imm8 f).toInt = if f.toNat < 32 then (f.toNat : Int) else f.toNat - 64 := by
  have hext : (imm8 f).toInt = f.toInt := BitVec.toInt_signExtend_of_le (by decide)
  rw [hext, BitVec.toInt_eq_toNat_cond]
  split <;> split <;> omega

/-- The signed immediate in bits: bit 5 of the field is copied to bits 6 and 7 (R64). -/
theorem imm8_getLsbD (f : Field) {k : Nat} (hk : k < 8) : (imm8 f).getLsbD k = f.getLsbD (min k 5) := by
  by_cases h6 : k < 6
  · have hmin : min k 5 = k := by omega
    simp [imm8, BitVec.getElem_signExtend, hk, h6, hmin]
  · have hmin : min k 5 = 5 := by omega
    simp [imm8, BitVec.getElem_signExtend, hk, h6, hmin, BitVec.msb_eq_getLsbD_last]

/-- Extending the sign adds a multiple of 8, so the signed immediate masked with 7 is bits 2:0 of the field (R66). -/
theorem imm8_and_seven_toNat (f : Field) : (imm8 f &&& 7#8).toNat = shiftAmount f := by
  have hmask : (imm8 f &&& 7#8).toNat = (imm8 f).toNat % 8 := Nat.and_two_pow_sub_one_eq_mod _ 3
  have hext : (imm8 f).toNat = f.toNat + if f.msb then 192 else 0 := by
    have hf : f.toNat % 256 = f.toNat := Nat.mod_eq_of_lt (by omega)
    simp [imm8, BitVec.toNat_signExtend, hf]
  have hlow : shiftAmount f = f.toNat % 8 := by simp [shiftAmount]
  rw [hmask, hext, hlow]
  split <;> omega

/-! ### The shifts -/

theorem salResult_toNat (a : Byte) (sh : Nat) : (salResult a sh).toNat = (a.toNat * 2 ^ sh) % 256 :=
  BitVec.toNat_ofNat ..

/-- The floor of the signed value over `2^sh` is the arithmetic shift of the bits. -/
theorem sarResult_eq_sshiftRight (a : Byte) (sh : Nat) : sarResult a sh = a.sshiftRight sh :=
  congrArg (BitVec.ofInt 8) (Int.shiftRight_eq_div_pow ..).symm

/-- The floor fits a byte, so R113's modulo does not change it. -/
theorem sarResult_toInt (a : Byte) (sh : Nat) : (sarResult a sh).toInt = a.toInt / 2 ^ sh := by
  rw [sarResult_eq_sshiftRight, BitVec.toInt_sshiftRight, Int.shiftRight_eq_div_pow]
  norm_cast

theorem sarResult_getLsbD (a : Byte) (sh : Nat) {k : Nat} (hk : k < 8) :
    (sarResult a sh).getLsbD k = if k + sh < 8 then a.getLsbD (k + sh) else a.getLsbD 7 := by
  have hlt : ¬ 8 ≤ k := by omega
  simp [sarResult_eq_sshiftRight, BitVec.getLsbD_sshiftRight, hlt, BitVec.msb_eq_getLsbD_last, Nat.add_comm]

/-! ### The instructions -/

/-- The commit of an instruction that assigns N and Z only (R20): `exec_of_commitAlu` with the two flags read off the
register written. -/
theorem exec_of_commitLogic {i : Instr} {d : RegIdx} {r : Byte} {s : State}
    (h : exec i s = commitAlu d r (s.sreg.afterLogic r) s) :
    ∃ t, exec i s = .next t ∧ t.reg d = r ∧
      t.sreg.c = s.sreg.c ∧ t.sreg.v = s.sreg.v ∧ t.sreg.s = s.sreg.s ∧
      (t.sreg.n = true ↔ 128 ≤ (t.reg d).toNat) ∧ (t.sreg.z = true ↔ t.reg d = 0#8) ∧
      RegsSameBut d s t ∧ CellsSame s t ∧ FlowSame s t ∧ RunSame s t ∧ ControlSame s t := by
  obtain ⟨t, ht, hd, hf, frame⟩ := exec_of_commitAlu h
  refine ⟨t, ht, hd, ?_⟩
  rw [hd, hf]
  exact ⟨rfl, rfl, rfl, flagN_iff r, flagZ_iff r, frame⟩

/-- Settles O8: MOVI commits the signed immediate (`imm8_toInt`) and the flags as they were. -/
theorem moviWritesSignedImmediate : Obligations.MoviWritesSignedImmediate := by
  intro d imm s
  refine ⟨decode_of_base 3#4 d imm rfl, ?_⟩
  obtain ⟨t, ht, hd, hf, frame⟩ :=
    exec_of_commitAlu (i := .movi d imm) (d := d) (r := imm8 imm) (f := s.sreg) (s := s) rfl
  exact ⟨t, ht, hd ▸ imm8_toInt imm, hf, frame⟩

/-- Settles O9: the commit of the snapshot under the mask, whose bits are those of `imm8_getLsbD`. -/
theorem andiMasksWithSignedImmediate : Obligations.AndiMasksWithSignedImmediate := by
  rintro d imm s _ rfl
  refine ⟨decode_of_base 5#4 d imm rfl, ?_⟩
  obtain ⟨t, ht, hd, flagsAndFrame⟩ := exec_of_commitLogic (i := .andi d imm) (s := s) rfl
  refine ⟨t, ht, fun k hk => ?_, flagsAndFrame⟩
  rw [hd, BitVec.getLsbD_and, imm8_getLsbD imm hk]
  rfl

/-- Settles O10: the commit of the left shift (`salResult_toNat`) by the masked immediate (`imm8_and_seven_toNat`). -/
theorem salShiftsLeftByMaskedImmediate : Obligations.SalShiftsLeftByMaskedImmediate := by
  rintro d imm s _ _ rfl rfl
  refine ⟨decode_of_base 8#4 d imm rfl, ?_⟩
  obtain ⟨t, ht, hd, flagsAndFrame⟩ := exec_of_commitLogic (i := .sal d imm) (s := s) rfl
  rw [← imm8_and_seven_toNat] at hd
  exact ⟨t, ht, hd ▸ salResult_toNat .., flagsAndFrame⟩

/-- Settles O11: the commit of the arithmetic shift, as a floor (`sarResult_toInt`) and bit by bit
(`sarResult_getLsbD`), by the masked immediate (`imm8_and_seven_toNat`). -/
theorem sarShiftsRightReplicatingSign : Obligations.SarShiftsRightReplicatingSign := by
  rintro d imm s _ _ rfl rfl
  refine ⟨decode_of_base 9#4 d imm rfl, ?_⟩
  obtain ⟨t, ht, hd, flagsAndFrame⟩ := exec_of_commitLogic (i := .sar d imm) (s := s) rfl
  rw [← imm8_and_seven_toNat] at hd
  exact ⟨t, ht, hd ▸ sarResult_toInt .., fun k hk => hd ▸ sarResult_getLsbD _ _ hk, flagsAndFrame⟩

end Sys2Proof.Machine

/-! PROOF. LDR and STR: the cells after a store, and the two rules R130 and R131. -/

namespace Sys2Proof.Machine

/-! ### The cells after a store -/

@[simp] theorem setDmem_write_cell_same (s : State) (a : Nat) (v : Byte) :
    (s.setDmem (s.dmem.write a v)).cell a = v :=
  Memory.read_write_same ..

theorem setDmem_write_cell_other (s : State) {a b : Nat} (v : Byte) (h : b ≠ a) :
    (s.setDmem (s.dmem.write a v)).cell b = s.cell b :=
  Memory.read_write_other _ v h

/-! ### The instructions -/

/-- Settles O17: STR does one store (`execStr_eq`), which sets the addressed cell to the snapshot and leaves every other
cell as it was. -/
theorem strWritesTheSnapshot : Obligations.StrWritesTheSnapshot := by
  intro d addr s
  refine ⟨decode_of_base 11#4 d addr rfl, s.setDmem (s.dmem.write addr.toNat (op1 s)), execStr_eq d addr s, ?_⟩
  have hcell : (s.setDmem (s.dmem.write addr.toNat (op1 s))).cell addr.toNat = s.executeSlot.op1 :=
    setDmem_write_cell_same ..
  have hother : CellsSameBut addr.toNat s (s.setDmem (s.dmem.write addr.toNat (op1 s))) :=
    fun _ hb => setDmem_write_cell_other s (op1 s) hb
  refine ⟨hcell, setDmem_sreg .., hother, ?_⟩
  simp [RegsSame, FlowSame, RunSame, ControlSame]

/-- Settles O16: LDR commits the cell that its 6-bit address names (`execLdr_eq`) and the flags as they were. -/
theorem ldrReadsTheCell : Obligations.LdrReadsTheCell := by
  intro d addr s
  refine ⟨decode_of_base 10#4 d addr rfl, ?_⟩
  exact exec_of_commitAlu (f := s.sreg) (execLdr_eq d addr s)

end Sys2Proof.Machine

/-! PROOF. Decoding and encoding (R61 to R72): the opcode that a word and a decoded slot keep, the two round trips, and
the words that the loader's encoding yields. -/

namespace Sys2Proof

/-! ### The round trips -/

/-- The encoder undoes the selection by opcode, for each of the sixteen opcode values. -/
theorem encode_ofFields (op : Opcode) (f1 f2 : Field) : encode (Instr.ofFields op f1 f2) = packFields op f1 f2 := by
  have hop : op = BitVec.ofNat 4 op.toNat := by simp
  have hlt : op.toNat < 16 := op.isLt
  generalize op.toNat = n at hop hlt
  subst hop
  interval_cases n <;> rfl

theorem decode_packFields (op : Opcode) (f1 f2 : Field) : decode (packFields op f1 f2) = Instr.ofFields op f1 f2 :=
  decode_of_fields rfl

theorem decode_encode (i : Instr) : decode (encode i) = i := by
  cases i <;> exact decode_packFields ..

theorem encode_decode (w : Word) : encode (decode w) = w :=
  (encode_ofFields ..).trans (packFields_of_word w)

/-- The opcode of an instruction's word is the one that selects the instruction. -/
@[simp] theorem opcodeOf_encode_ofFields (op : Opcode) (f1 f2 : Field) :
    opcodeOf (encode (Instr.ofFields op f1 f2)) = op := by
  rw [encode_ofFields, opcodeOf_packFields]

/-! ### The fields in numbers -/

theorem opcodeOf_toNat (w : Word) : (opcodeOf w).toNat = w.toNat / 4096 := by
  have : w.toNat / 4096 < 16 := by omega
  simp [opcodeOf, Nat.shiftRight_eq_div_pow, Nat.mod_eq_of_lt this]

theorem field1Of_toNat (w : Word) : (field1Of w).toNat = w.toNat / 64 % 64 := by
  simp [field1Of, Nat.shiftRight_eq_div_pow]

theorem field2Of_toNat (w : Word) : (field2Of w).toNat = w.toNat % 64 := by
  simp [field2Of]

theorem word_toNat (w : Word) :
    w.toNat = (opcodeOf w).toNat * 4096 + (field1Of w).toNat * 64 + (field2Of w).toNat := by
  rw [opcodeOf_toNat, field1Of_toNat, field2Of_toNat]
  omega

/-- Settles O2: the two round trips, the layout in numbers (`word_toNat`), and the decoder on packed fields. -/
theorem decodeAndEncodeAreInverse : Obligations.DecodeAndEncodeAreInverse :=
  ⟨decode_encode, encode_decode, word_toNat, decode_packFields⟩

/-- Settles O1: seven closed words, each evaluated by the decoder. -/
theorem wordsOfTheTableDecode : Obligations.WordsOfTheTableDecode := by
  unfold Obligations.WordsOfTheTableDecode
  decide

/-! ### The loader's encoding -/

/-- The twelve instructions are those with an opcode below 12 (R68, R72). -/
theorem wellFormed_iff (i : Instr) : i.wellFormed = true ↔ opcodeOf (encode i) < 12#4 := by
  cases i <;> simp [Instr.wellFormed, encode]

theorem wellFormed_of_packFields {op : Opcode} (f1 f2 : Field) (h : op < 12#4) :
    (decode (packFields op f1 f2)).wellFormed = true := by
  rwa [decode_packFields, wellFormed_iff, opcodeOf_encode_ofFields]

theorem opcode_of_lookup {m : String} {op : Opcode} {fmt : AsmFormat} (h : mnemonicTable.lookup m = some (op, fmt)) :
    op < 12#4 := by
  have hall : ∀ row ∈ mnemonicTable, row.2.1 < 12#4 := by decide
  obtain ⟨l₁, l₂, htable, -⟩ := List.lookup_eq_some_iff.mp h
  exact hall (m, op, fmt) (by simp [htable])

/-- Operands that pass the loader's checks make a word of the opcode they were given (R71). -/
theorem packFields_of_assembleOperands {op : Opcode} {fmt : AsmFormat} {operands : List AsmOperand} {w : Word}
    (h : assembleOperands op fmt operands = .ok w) : ∃ f1 f2, w = packFields op f1 f2 := by
  unfold assembleOperands at h
  split at h
  · next d second =>
    split at h
    · cases hf : assembleField2 fmt second with
      | error e => simp [hf, Except.map] at h
      | ok f =>
        rw [hf] at h
        injection h with h
        exact ⟨_, f, h.symm⟩
    · cases h
  · cases h

theorem assembleLine_of_lookup {line : AsmLine} {op : Opcode} {fmt : AsmFormat}
    (h : mnemonicTable.lookup line.mnemonic = some (op, fmt)) :
    assembleLine line = assembleOperands op fmt line.operands := by
  simp only [assembleLine, h]

/-- A line that assembles makes a word of one of the twelve opcodes. -/
theorem packFields_of_assembleLine {line : AsmLine} {w : Word} (h : assembleLine line = .ok w) :
    ∃ op f1 f2, op < 12#4 ∧ w = packFields op f1 f2 := by
  cases hrow : mnemonicTable.lookup line.mnemonic with
  | none => simp [assembleLine, hrow] at h
  | some row =>
    obtain ⟨op, fmt⟩ := row
    rw [assembleLine_of_lookup hrow] at h
    obtain ⟨f1, f2, hw⟩ := packFields_of_assembleOperands h
    exact ⟨op, f1, f2, opcode_of_lookup hrow, hw⟩

theorem assembleLine_movi {d : Nat} {n : Int} (hd : d < 64) (hlow : -32 ≤ n) (hhigh : n ≤ 31) :
    assembleLine ⟨"MOVI", [.reg d, .int n]⟩ = .ok (packFields 3#4 (BitVec.ofNat 6 d) (BitVec.ofInt 6 n)) := by
  have hrow : mnemonicTable.lookup "MOVI" = some (3#4, .immediate) := by decide
  rw [assembleLine_of_lookup hrow]
  simp [assembleOperands, assembleField2, registerInRange, immediateInRange, hd, hlow, hhigh, Except.map]

namespace Machine

/-- An immediate of six bits comes back from its field as the number written (R64, R71). -/
theorem imm8_ofInt {n : Int} (hlow : -32 ≤ n) (hhigh : n ≤ 31) : (imm8 (BitVec.ofInt 6 n)).toInt = n := by
  have hext : (imm8 (BitVec.ofInt 6 n)).toInt = (BitVec.ofInt 6 n).toInt :=
    BitVec.toInt_signExtend_of_le (by decide)
  rw [hext]
  exact BitVec.toInt_ofInt_eq_self (by decide) (by omega) (by omega)

/-- Settles O44: a line's word has one of the twelve opcodes (`packFields_of_assembleLine`), and MOVI's line is the word
of its operands (`assembleLine_movi`). -/
theorem assembledWordsAreWellFormed : Obligations.AssembledWordsAreWellFormed := by
  refine ⟨fun line w h => ?_, fun d n hd hlow hhigh => ?_⟩
  · obtain ⟨op, f1, f2, hop, rfl⟩ := packFields_of_assembleLine h
    exact wellFormed_of_packFields f1 f2 hop
  · exact ⟨_, _, assembleLine_movi hd hlow hhigh, decode_packFields .., imm8_ofInt hlow hhigh⟩

end Machine

end Sys2Proof

/-! PROOF. What an instruction does to the flow of the program at Commit: the target that a taken branch has, and that
every other instruction but a reserved one leaves pc, status and record alone (R120 to R122, R180 to R183). -/

namespace Sys2Proof.Machine

/-! ### Branch targets -/

/-- The target of an instruction that is a taken branch: BEQZ of a zero snapshot, and BR (R120, R121). -/
def takenTarget (s : State) : Instr → Option Word
  | .beqz _ imm => if op1 s = 0#8 then some (beqzTarget imm s) else none
  | .br _ _ => some (brTarget s)
  | _ => none

/-- BEQZ's target as the sum that R120 writes, modulo 65536 (decision D8). -/
theorem beqzTarget_toNat (imm : Field) (s : State) :
    ((beqzTarget imm s).toNat : Int) = (s.executeSlot.fetchPc.toNat + 1 + imm.toInt) % 65536 := by
  have hsum : (beqzTarget imm s).toNat =
      (s.executeSlot.fetchPc.toNat + 1 + (imm16 imm).toNat) % 65536 := by
    simp [beqzTarget, BitVec.toNat_add]
  have himm : ((imm16 imm).toNat : Int) = imm.toInt % 65536 := by
    have hext : (imm16 imm).toInt = imm.toInt := BitVec.toInt_signExtend_of_le (by decide)
    rw [← hext, BitVec.toInt_eq_toNat_cond]
    have := (imm16 imm).isLt
    split <;> omega
  omega

/-- BR's target as the number of its two bytes (R121). -/
theorem brTarget_toNat (s : State) :
    (brTarget s).toNat = s.executeSlot.op1.toNat * 256 + s.executeSlot.op2.toNat := by
  have hlow : (op2 s).toNat < 2 ^ 8 := (op2 s).isLt
  rw [brTarget, BitVec.toNat_append, ← Nat.shiftLeft_add_eq_or_of_lt hlow, Nat.shiftLeft_eq]
  rfl

/-- A taken branch is a BEQZ whose snapshot is 0 or a BR, by the opcode in its word. -/
theorem opcode_of_takenTarget {s : State} {i : Instr} {target : Word} (h : takenTarget s i = some target) :
    opcodeOf (encode i) = 4#4 ∧ op1 s = 0#8 ∧ target = beqzTarget (field2Of (encode i)) s ∨
      opcodeOf (encode i) = 7#4 ∧ target = brTarget s := by
  cases i with
  | beqz d imm =>
    obtain ⟨h0, htarget⟩ := Option.ite_none_right_eq_some.mp h
    cases htarget
    exact .inl ⟨opcodeOf_packFields .., h0, by rw [encode, field2Of_packFields]⟩
  | br hi lo => exact .inr ⟨opcodeOf_packFields .., (Option.some.inj h).symm⟩
  | _ => cases h

/-- A plain opcode is no taken branch. -/
theorem takenTarget_of_plain {s : State} {i : Instr} (h : PlainOpcode (opcodeOf (encode i))) :
    takenTarget s i = none := by
  obtain ⟨hbeqz, hbr, -⟩ := h
  cases htaken : takenTarget s i with
  | none => rfl
  | some target =>
    rcases opcode_of_takenTarget htaken with ⟨hop, -⟩ | ⟨hop, -⟩
    · exact absurd hop hbeqz
    · exact absurd hop hbr

@[simp] theorem opcodeOf_encode_instr (slot : Slot) : opcodeOf (encode slot.instr) = slot.opcode :=
  opcodeOf_encode_ofFields ..

@[simp] theorem field2Of_encode_instr (slot : Slot) : field2Of (encode slot.instr) = slot.field2 := by
  rw [Slot.instr, encode_ofFields, field2Of_packFields]

/-- The Execute slot of a taken branch. -/
theorem executeSlot_of_takenTarget {s : State} {target : Word} (h : takenTarget s s.executeSlot.instr = some target) :
    s.executeSlot.opcode = 4#4 ∧ s.executeSlot.op1 = 0#8 ∧ target = beqzTarget s.executeSlot.field2 s ∨
      s.executeSlot.opcode = 7#4 ∧ target = brTarget s := by
  have hslot := opcode_of_takenTarget h
  rw [opcodeOf_encode_instr, field2Of_encode_instr] at hslot
  exact hslot

/-! ### The three ways of an instruction -/

/-- A taken branch is resolved, and that is all it does (R122). -/
theorem exec_of_takenTarget {s : State} {i : Instr} {target : Word} (h : takenTarget s i = some target) :
    exec i s = .next (resolveBranch target s) := by
  cases i with
  | beqz d imm =>
    obtain ⟨h0, htarget⟩ := Option.ite_none_right_eq_some.mp h
    cases htarget
    exact if_pos h0
  | br hi lo =>
    cases h
    rfl
  | _ => cases h

/-- An instruction that is not one of the twelve raises the fault of a reserved opcode (R182). -/
theorem exec_of_not_wellFormed {s : State} {i : Instr} (h : i.wellFormed = false) :
    exec i s = .next (raiseReserved s) := by
  cases i with
  | reserved12 | reserved13 | reserved14 | reserved15 => rfl
  | _ => cases h

/-- Every other instruction, a BEQZ that is not taken among them, leaves `pc`, `pending_flush`, the status and the fault
record as they were. -/
theorem exec_flow {s t : State} {i : Instr} (h : exec i s = .next t) (htaken : takenTarget s i = none)
    (hwf : i.wellFormed = true) : FlowSame s t ∧ RunSame s t := by
  cases i with
  | add | sub | mul | movi | andi | eor | sal | sar =>
    injection h with h
    subst h
    exact ⟨⟨rfl, rfl⟩, rfl, rfl⟩
  | beqz d imm =>
    have h0 : op1 s ≠ 0#8 := fun h0 => by simp [takenTarget, h0] at htaken
    injection (if_neg h0).symm.trans h with h
    subst h
    exact ⟨⟨rfl, rfl⟩, rfl, rfl⟩
  | br => cases htaken
  | ldr d addr =>
    injection (execLdr_eq d addr s).symm.trans h with h
    subst h
    exact ⟨⟨rfl, rfl⟩, rfl, rfl⟩
  | str d addr =>
    injection (execStr_eq d addr s).symm.trans h with h
    subst h
    exact ⟨⟨rfl, rfl⟩, rfl, rfl⟩
  | reserved12 | reserved13 | reserved14 | reserved15 => cases hwf

/-! ### What the five effects leave unchanged -/

/-- No instruction writes the program, a slot, `fetch_exhausted` or the counter. -/
theorem Effect.controlSame {s u : State} (e : Effect s u) : ControlSame s u := by
  cases e <;> exact ⟨rfl, rfl, rfl, rfl, rfl, rfl, rfl⟩

/-- An instruction keeps the canonical form of data memory. -/
theorem Effect.dmem_wf {s u : State} (e : Effect s u) (h : s.dmem.wf = true) : u.dmem.wf = true := by
  cases e with
  | store addr v => exact Memory.wf_write h (by omega)
  | _ => exact h

/-- An instruction leaves `pc` where it was or at a target inside the program. -/
theorem Effect.pc_le {s u : State} (e : Effect s u) (h : s.pc.toNat ≤ s.programSize.val) :
    u.pc.toNat ≤ s.programSize.val := by
  cases e with
  | redirect target hlt => exact hlt.le
  | _ => exact h

/-- What an instruction can do to the status: raise a fault of its own, which is all it does then, or leave status and
record alone. -/
theorem Effect.raise_or_runSame {s u : State} (e : Effect s u) :
    (∃ r, r.fetchPc = s.executeSlot.fetchPc ∧ u = s.raise r) ∨ RunSame s u := by
  cases e with
  | raise r h => exact .inl ⟨r, h, rfl⟩
  | _ => exact .inr ⟨rfl, rfl⟩

/-- An instruction that faults the machine has raised a fault and done nothing else (R183). -/
theorem Effect.raise_of_faulted {s u : State} (e : Effect s u) (hs : s.status = .running) (hu : u.status = .faulted) :
    ∃ r, r.fetchPc = s.executeSlot.fetchPc ∧ u = s.raise r := by
  rcases e.raise_or_runSame with hraise | ⟨hstatus, -⟩
  · exact hraise
  · exact absurd (hs.symm.trans (hstatus.symm.trans hu)) (by decide)

theorem Effect.runSame_of_not_faulted {s u : State} (e : Effect s u) (hu : u.status ≠ .faulted) : RunSame s u := by
  rcases e.raise_or_runSame with ⟨r, -, rfl⟩ | hsame
  · exact absurd rfl hu
  · exact hsame

theorem sameButFault_raise (s : State) (r : FaultRecord) : SameButFault s (s.raise r) :=
  ⟨fun _ => rfl, fun _ => rfl, rfl, ⟨rfl, rfl⟩, rfl, rfl, rfl, rfl, rfl, rfl, rfl⟩

theorem sameButFlow_redirect (s : State) (target : Word) : SameButFlow s (s.redirect target) :=
  ⟨fun _ => rfl, fun _ => rfl, rfl, ⟨rfl, rfl⟩, rfl, rfl, rfl, rfl, rfl, rfl, rfl⟩

/-! ### Branches -/

/-- A taken branch with its target in the program (R122). -/
theorem exec_of_target_in_program {s : State} {i : Instr} {target : Word} (h : takenTarget s i = some target)
    (hlt : target.toNat < s.programSize.val) :
    ∃ t, exec i s = .next t ∧ t.pc = target ∧ t.pendingFlush = true ∧ SameButFlow s t := by
  have hresolve : resolveBranch target s = s.redirect target := if_neg (by omega)
  exact ⟨s.redirect target, hresolve ▸ exec_of_takenTarget h, rfl, rfl, sameButFlow_redirect ..⟩

/-- A taken branch with its target outside the program (R181). -/
theorem exec_of_target_out_of_program {s : State} {i : Instr} {target : Word} (h : takenTarget s i = some target)
    (hle : s.programSize.val ≤ target.toNat) :
    ∃ t, exec i s = .next t ∧ t.status = .faulted ∧
      t.fault = some (.branchTargetOutOfRange s.executeSlot.fetchPc target) ∧ SameButFault s t := by
  have hresolve : resolveBranch target s = s.raise (.branchTargetOutOfRange s.executeSlot.fetchPc target) :=
    if_pos hle
  exact ⟨_, hresolve ▸ exec_of_takenTarget h, rfl, rfl, sameButFault_raise ..⟩

theorem takenTarget_beqz {s : State} (d : RegIdx) {imm : Field} {target : Word} (h0 : s.executeSlot.op1 = 0#8)
    (htarget : (target.toNat : Int) = (s.executeSlot.fetchPc.toNat + 1 + imm.toInt) % 65536) :
    takenTarget s (.beqz d imm) = some target := by
  have heq : beqzTarget imm s = target := by
    apply BitVec.eq_of_toNat_eq
    have := beqzTarget_toNat imm s
    omega
  exact (if_pos h0).trans (congrArg some heq)

theorem takenTarget_br {s : State} (hi lo : RegIdx) {target : Word}
    (htarget : target.toNat = s.executeSlot.op1.toNat * 256 + s.executeSlot.op2.toNat) :
    takenTarget s (.br hi lo) = some target :=
  congrArg some (BitVec.eq_of_toNat_eq ((brTarget_toNat s).trans htarget.symm))

/-- Settles O12: a BEQZ that is not taken answers its own state. -/
theorem beqzOfNonzeroChangesNothing : Obligations.BeqzOfNonzeroChangesNothing := by
  intro d imm s h
  exact ⟨decode_of_base 4#4 d imm rfl, if_neg h⟩

/-- Settles O13: the sum of R120 is BEQZ's taken target, and a target in the program redirects. -/
theorem beqzOfZeroRedirects : Obligations.BeqzOfZeroRedirects := by
  intro d imm s target h0 htarget hlt
  exact exec_of_target_in_program (takenTarget_beqz d h0 htarget) hlt

/-- Settles O14: the sum of R120 is BEQZ's taken target, and a target outside the program faults. -/
theorem beqzOfZeroOutOfRangeFaults : Obligations.BeqzOfZeroOutOfRangeFaults := by
  intro d imm s target h0 htarget hle
  exact exec_of_target_out_of_program (takenTarget_beqz d h0 htarget) hle

/-- Settles O15: the two snapshots are BR's taken target, which redirects or faults by the range check. -/
theorem brJumpsToTheTwoSnapshots : Obligations.BrJumpsToTheTwoSnapshots := by
  intro hi lo s target htarget
  have htaken := takenTarget_br hi lo htarget
  exact ⟨decode_of_base 7#4 hi lo rfl, exec_of_target_in_program htaken, exec_of_target_out_of_program htaken⟩

end Sys2Proof.Machine

/-! PROOF. Signed overflow: the V and S that ADD and SUB assign, in the signed values of the operands (R17). -/

namespace Sys2Proof.Machine

/-- Bit 7 of a byte is its sign. -/
theorem bit7_eq (a : Byte) : a.getLsbD 7 = decide (a.toInt < 0) :=
  (BitVec.msb_eq_getLsbD_last a).symm.trans BitVec.msb_eq_toInt

theorem addResult_toInt (a b : Byte) : (addResult a b).toInt = (a.toInt + b.toInt).bmod 256 := by
  have hsum : addResult a b = a + b :=
    BitVec.eq_of_toNat_eq ((addResult_toNat a b).trans (BitVec.toNat_add a b).symm)
  rw [hsum, BitVec.toInt_add]

theorem subResult_toInt (a b : Byte) : (subResult a b).toInt = (a.toInt - b.toInt).bmod 256 := by
  have hdiff : subResult a b = a - b := by
    apply BitVec.eq_of_toNat_eq
    rw [subResult_toNat, BitVec.toNat_sub]
    omega
  rw [hdiff, BitVec.toInt_sub]

theorem toInt_bounds (a : Byte) : -128 ≤ a.toInt ∧ a.toInt < 128 := ⟨a.le_toInt, a.toInt_lt⟩

/-- V after ADD: the signed sum does not fit a byte. -/
theorem overflowOfAdd_signed (a b : Byte) : overflowOfAdd a b (addResult a b) = true ↔
    a.toInt + b.toInt < -128 ∨ 127 < a.toInt + b.toInt := by
  have ha := toInt_bounds a
  have hb := toInt_bounds b
  rw [overflowOfAdd_iff, bit7_eq, bit7_eq, bit7_eq, addResult_toInt, Int.bmod_def]
  simp only [decide_eq_decide, ne_eq]
  omega

/-- V after SUB: the signed difference does not fit a byte. -/
theorem overflowOfSub_signed (a b : Byte) : overflowOfSub a b (subResult a b) = true ↔
    a.toInt - b.toInt < -128 ∨ 127 < a.toInt - b.toInt := by
  have ha := toInt_bounds a
  have hb := toInt_bounds b
  rw [overflowOfSub_iff, bit7_eq, bit7_eq, bit7_eq, subResult_toInt, Int.bmod_def]
  simp only [decide_eq_decide, ne_eq]
  omega

/-- N xor V is the sign of an exact result `z`, if the byte written is `z` wrapped and V says that `z` does not fit. -/
theorem flagN_xor_overflow {r : Byte} {v : Bool} {z : Int} (hr : r.toInt = z.bmod 256)
    (hz : -256 ≤ z ∧ z < 256) (hv : v = true ↔ z < -128 ∨ 127 < z) : (flagN r ^^ v) = true ↔ z < 0 := by
  rw [Bool.xor_iff_ne, ne_eq, Bool.eq_iff_iff, hv, flagN, bit7_eq, hr, decide_eq_true_iff, Int.bmod_def]
  omega

/-- Settles O7: V says that the exact result does not fit (`overflowOfAdd_signed`, `overflowOfSub_signed`), and S is
N xor V (`flagN_xor_overflow`). -/
theorem addSubOverflowIsSignedOverflow : Obligations.AddSubOverflowIsSignedOverflow := by
  rintro d r s t _ _ rfl rfl
  have ha := toInt_bounds s.executeSlot.op1
  have hb := toInt_bounds s.executeSlot.op2
  refine ⟨fun h => ?_, fun h => ?_⟩
  · injection h with h
    subst h
    have hv := overflowOfAdd_signed s.executeSlot.op1 s.executeSlot.op2
    exact ⟨hv, flagN_xor_overflow (addResult_toInt ..) (by omega) hv⟩
  · injection h with h
    subst h
    have hv := overflowOfSub_signed s.executeSlot.op1 s.executeSlot.op2
    exact ⟨hv, flagN_xor_overflow (subResult_toInt ..) (by omega) hv⟩

end Sys2Proof.Machine

/-! PROOF. The cycle: what Commit and steps 2 to 6 make of a state (R141 to R149), how a fault stops the machine (R180
to R183), and what a step can do to the flags, pc, fetch exhaustion and the counter. -/

namespace Sys2Proof.Machine

/-! ### Commit -/

theorem commitsTo_iff (s u : State) : CommitsTo s u ↔ commit s = .next u := by
  cases hv : s.executeSlot.valid
  · simp [CommitsTo, commit, hv, eq_comm]
  · simp [CommitsTo, commit, hv]

theorem CommitsTo.effect {s u : State} (h : CommitsTo s u) : Effect s u := by
  rcases h with ⟨-, rfl⟩ | ⟨-, hexec⟩
  · exact .none
  · exact effect_of_exec hexec

/-- An empty Execute slot commits nothing. -/
theorem CommitsTo.eq_of_empty {s u : State} (h : CommitsTo s u) (hE : s.executeSlot.valid = false) : u = s := by
  rcases h with ⟨-, hus⟩ | ⟨hvalid, -⟩
  · exact hus
  · exact absurd (hE.symm.trans hvalid) (by decide)

theorem CommitsTo.exec_of_valid {s u : State} (h : CommitsTo s u) (hE : s.executeSlot.valid = true) :
    exec s.executeSlot.instr s = .next u := by
  rcases h with ⟨hempty, -⟩ | ⟨-, hexec⟩
  · exact absurd (hempty.symm.trans hE) (by decide)
  · exact hexec

theorem exists_commitsTo (s : State) : ∃ u, CommitsTo s u := by
  obtain ⟨u, hu, -⟩ := commit_effect s
  exact ⟨u, (commitsTo_iff s u).mpr hu⟩

theorem afterCommit_of_faulted {u : State} (h : u.status = .faulted) : afterCommit u = u := if_pos h

theorem afterCommit_of_not_faulted {u : State} (h : u.status ≠ .faulted) : afterCommit u = finishCycle u := if_neg h

theorem step_of_commitsTo {s u : State} (hs : s.status = .running) (h : CommitsTo s u) :
    step s = .next (afterCommit u) :=
  step_of_commit hs ((commitsTo_iff s u).mp h)

/-- A machine that is not Running stays as it is (R33). -/
theorem eq_of_step_of_not_running {s t : State} (hs : s.status ≠ .running) (h : step s = .next t) : s = t := by
  injection (step_of_not_running hs).symm.trans h

/-- A step of a Running machine, by what it commits. -/
theorem commitsTo_of_step {s t : State} (hs : s.status = .running) (h : step s = .next t) :
    ∃ u, CommitsTo s u ∧ t = afterCommit u := by
  obtain ⟨u, hu⟩ := exists_commitsTo s
  injection (step_of_commitsTo hs hu).symm.trans h with ht
  exact ⟨u, hu, ht.symm⟩

/-- Steps 2 to 6 raise no fault. -/
theorem finishCycle_not_faulted {u : State} (h : u.status ≠ .faulted) : (finishCycle u).status ≠ .faulted := by
  rw [finishCycle_status]
  split
  · decide
  · exact h

theorem afterCommit_faulted_iff (u : State) : (afterCommit u).status = .faulted ↔ u.status = .faulted := by
  by_cases h : u.status = .faulted
  · rw [afterCommit_of_faulted h]
  · rw [afterCommit_of_not_faulted h]
    exact iff_of_false (finishCycle_not_faulted h) h

/-- A step of a Running machine that raises no fault commits and finishes the cycle. -/
theorem finishCycle_of_step {s t : State} (hs : s.status = .running) (h : step s = .next t)
    (ht : t.status ≠ .faulted) : ∃ u, CommitsTo s u ∧ u.status = .running ∧ t = finishCycle u := by
  obtain ⟨u, hu, rfl⟩ := commitsTo_of_step hs h
  rw [ne_eq, afterCommit_faulted_iff] at ht
  exact ⟨u, hu, (hu.effect.runSame_of_not_faulted ht).1.trans hs, afterCommit_of_not_faulted ht⟩

/-- A step of a Running machine that faults answers what the execute unit answers, and does nothing after it (R183). -/
theorem exec_of_step_faulted {s t : State} (hs : s.status = .running) (h : step s = .next t)
    (ht : t.status = .faulted) : s.executeSlot.valid = true ∧ exec s.executeSlot.instr s = .next t := by
  obtain ⟨u, hu, rfl⟩ := commitsTo_of_step hs h
  rw [afterCommit_faulted_iff] at ht
  rw [afterCommit_of_faulted ht]
  rcases hu with ⟨-, rfl⟩ | hexec
  · exact absurd (hs.symm.trans ht) (by decide)
  · exact hexec

theorem exists_step (s : State) : ∃ t, step s = .next t := by
  by_cases hs : s.status = .running
  · obtain ⟨u, hu⟩ := exists_commitsTo s
    exact ⟨_, step_of_commitsTo hs hu⟩
  · exact ⟨s, step_of_not_running hs⟩

/-- No run moves a machine that is not Running. -/
theorem run_of_not_running {s : State} (n : Nat) (h : s.status ≠ .running) : core.run n s = .next s := by
  induction n with
  | zero => rfl
  | succ n ih => rw [run_succ n (step_of_not_running h), ih]

/-- Settles O22: every commit answers a state (`exists_step`), and a stopped machine stays (`run_of_not_running`). -/
theorem stepsAlwaysAnswerAndFinalStatesAbsorb : Obligations.StepsAlwaysAnswerAndFinalStatesAbsorb :=
  ⟨exists_step, fun _ n h => run_of_not_running n h⟩

/-- A decoded slot holds the instruction that its word decodes to. -/
theorem instr_of_slotDecoded {slot : Slot} (h : SlotDecoded slot) : slot.instr = decode slot.raw := by
  obtain ⟨hop, hf1, hf2⟩ := h
  rw [Slot.instr, decode, hop, hf1, hf2]

/-- Settles O23: a decoded slot holds the instruction its word decodes to, and the step commits it. -/
theorem stepRunsTheDecodedInstruction : Obligations.StepRunsTheDecodedInstruction := by
  rintro _ s hs hvalid hdecoded rfl
  rw [← instr_of_slotDecoded hdecoded]
  refine ⟨fun t hexec ht => ?_, fun t hexec ht => ?_⟩
  · rw [step_of_commitsTo hs (.inr ⟨hvalid, hexec⟩), afterCommit_of_not_faulted ht]
  · rw [step_of_commitsTo hs (.inr ⟨hvalid, hexec⟩), afterCommit_of_faulted ht]

/-! ### Faults -/

/-- What faults at Commit: a taken branch to a target outside the program, or a reserved opcode (R180). -/
theorem exec_faulted {s t : State} {i : Instr} (hs : s.status = .running) (h : exec i s = .next t)
    (ht : t.status = .faulted) :
    (∃ target, takenTarget s i = some target ∧ s.programSize.val ≤ target.toNat ∧
      t = s.raise (.branchTargetOutOfRange s.executeSlot.fetchPc target)) ∨
    i.wellFormed = false ∧ t = raiseReserved s := by
  cases htaken : takenTarget s i with
  | some target =>
    injection (exec_of_takenTarget htaken).symm.trans h with h
    rcases resolveBranch_cases target s with ⟨-, hredirect⟩ | ⟨hle, hraise⟩
    · rw [← h, hredirect] at ht
      exact absurd (hs.symm.trans ht) (by decide)
    · exact .inl ⟨target, rfl, hle, h.symm.trans hraise⟩
  | none =>
    cases hwf : i.wellFormed
    · injection (exec_of_not_wellFormed hwf).symm.trans h with h
      exact .inr ⟨rfl, h.symm⟩
    · obtain ⟨-, hstatus, -⟩ := exec_flow h htaken hwf
      exact absurd (hs.symm.trans (hstatus.symm.trans ht)) (by decide)

theorem not_wellFormed_iff (i : Instr) : i.wellFormed = false ↔ 12#4 ≤ opcodeOf (encode i) := by
  rw [← Bool.not_eq_true, wellFormed_iff, BitVec.not_lt]

theorem not_rFormat_of_reserved {op : Opcode} (h : 12#4 ≤ op) : isRFormat op = false := by
  have hne : ∀ k : Opcode, k < 12#4 → (op == k) = false := by
    intro k hk
    rw [beq_eq_false_iff_ne]
    bv_omega
  simp [isRFormat, hne]

/-- Settles O19: a reserved instruction raises its fault (`exec_of_not_wellFormed`), is not R-format, and an empty
Execute slot raises none (`exec_of_step_faulted`). -/
theorem reservedOpcodesFaultAtCommit : Obligations.ReservedOpcodesFaultAtCommit := by
  refine ⟨fun f1 f2 s i hi => ?_, fun slot s hvalid hop => ?_, fun s t hempty hstep => ?_⟩
  · have hwf : i.wellFormed = false := by
      rcases hi with rfl | rfl | rfl | rfl <;> rfl
    exact ⟨(not_wellFormed_iff i).mp hwf, raiseReserved s, exec_of_not_wellFormed hwf, rfl, rfl,
      sameButFault_raise ..⟩
  · obtain ⟨-, -, -, -, hop2⟩ := Slot.decoded_of_valid s hvalid
    rw [hop2, not_rFormat_of_reserved hop]
    rfl
  · by_cases ht : t.status = .faulted
    · by_cases hs : s.status = .running
      · obtain ⟨hvalid, -⟩ := exec_of_step_faulted hs hstep ht
        exact absurd (hempty.symm.trans hvalid) (by decide)
      · have hst := eq_of_step_of_not_running hs hstep
        exact .inr (hst ▸ ht)
    · exact .inl ht

/-- Settles O20: the effect of a faulting instruction is the fault alone, and nothing follows it. -/
theorem faultStopsTheMachineAtOnce : Obligations.FaultStopsTheMachineAtOnce := by
  intro s t hs hvalid hexec ht
  have hstep : step s = .next t := by
    rw [step_of_commitsTo hs (.inr ⟨hvalid, hexec⟩), afterCommit_of_faulted ht]
  obtain ⟨r, -, rfl⟩ := (effect_of_exec hexec).raise_of_faulted hs ht
  exact ⟨sameButFault_raise s r, rfl, hstep, fun n => run_of_not_running n (by simp)⟩

/-- Settles O21: what faults is what `exec_faulted` says, read off the opcode in Execute. -/
theorem onlyTwoConditionsFault : Obligations.OnlyTwoConditionsFault := by
  intro s t hs hstep ht
  obtain ⟨hvalid, hexec⟩ := exec_of_step_faulted hs hstep ht
  refine ⟨hvalid, ?_⟩
  rcases exec_faulted hs hexec ht with ⟨target, htaken, hle, rfl⟩ | ⟨hwf, rfl⟩
  · refine .inl ⟨target, hle, rfl, ?_⟩
    rcases executeSlot_of_takenTarget htaken with ⟨hop, h0, rfl⟩ | ⟨hop, rfl⟩
    · exact .inl ⟨hop, h0, beqzTarget_toNat ..⟩
    · exact .inr ⟨hop, brTarget_toNat s⟩
  · exact .inr ⟨by simpa using (not_wellFormed_iff _).mp hwf, rfl⟩

/-! ### The whole cycle -/

/-- The Terminate check in terms of the state that the cycle leaves (R148). -/
theorem finishCycle_halted_iff {u : State} (hu : u.status = .running) :
    (finishCycle u).status = .halted ↔ drained (finishCycle u) = true := by
  rw [finishCycle_status, hu]
  split <;> simp_all

theorem finishCycle_running_iff {u : State} (hu : u.status = .running) :
    (finishCycle u).status = .running ↔ drained (finishCycle u) = false := by
  rw [finishCycle_status, hu]
  split <;> simp_all

/-- What Decode leaves in the Decode slot, if it held an instruction in Fetch (R144). -/
theorem finishCycle_decodeSlot_decoded {u : State} (h : u.fetchSlot.valid = true) :
    SlotDecoded (finishCycle u).decodeSlot ∧ SlotSnapshots u (finishCycle u).decodeSlot := by
  rw [finishCycle_decodeSlot]
  simp [SlotDecoded, SlotSnapshots, Slot.decoded, h]

@[simp] theorem finishCycle_decodeSlot_valid (u : State) :
    (finishCycle u).decodeSlot.valid = (u.fetchSlot.valid && !u.pendingFlush) := by
  rw [finishCycle_decodeSlot]

@[simp] theorem finishCycle_decodeSlot_raw (u : State) : (finishCycle u).decodeSlot.raw = u.fetchSlot.raw := by
  rw [finishCycle_decodeSlot, Slot.decoded_raw]

@[simp] theorem finishCycle_decodeSlot_fetchPc (u : State) :
    (finishCycle u).decodeSlot.fetchPc = u.fetchSlot.fetchPc := by
  rw [finishCycle_decodeSlot, Slot.decoded_fetchPc]

/-- Settles O25: the cycle is the commit followed by `finishCycle`, field by field, and the commit leaves the program,
the slots, `fetch_exhausted` and the counter alone. -/
theorem cycleIsTheSixStepsInOrder : Obligations.CycleIsTheSixStepsInOrder := by
  intro s u more hs hu hmore
  obtain ⟨himem, hsize, hfetch, hdecode, -, hexh, hcount⟩ := hu.effect.controlSame
  have hcan : canFetch u = more := by
    rw [Bool.eq_iff_iff, canFetch_iff, hmore, hsize, hexh]
  rw [step_of_commitsTo hs hu]
  refine ⟨fun hf => by rw [afterCommit_of_faulted hf], fun hf => ⟨finishCycle u, ?_, ?_⟩⟩
  · rw [afterCommit_of_not_faulted hf]
  obtain ⟨hstatus, hfault⟩ := hu.effect.runSame_of_not_faulted hf
  have hrun : u.status = .running := hstatus.trans hs
  have hdec : s.fetchSlot.valid = true →
      (finishCycle u).decodeSlot.raw = s.fetchSlot.raw ∧ (finishCycle u).decodeSlot.fetchPc = s.fetchSlot.fetchPc ∧
        SlotDecoded (finishCycle u).decodeSlot ∧ SlotSnapshots u (finishCycle u).decodeSlot := by
    rw [← hfetch]
    exact fun h => ⟨finishCycle_decodeSlot_raw u, finishCycle_decodeSlot_fetchPc u, finishCycle_decodeSlot_decoded h⟩
  have hnew : more = true → (finishCycle u).fetchSlot.raw = s.imemWord u.pc ∧
      (finishCycle u).fetchSlot.fetchPc = u.pc := by
    intro h
    rw [finishCycle_fetchSlot_raw, finishCycle_fetchSlot_fetchPc, hcan, if_pos h, if_pos h, State.imemWord, himem]
    exact ⟨rfl, rfl⟩
  have hend : (finishCycle u).status = .halted ∨ (finishCycle u).status = .running := by
    rw [finishCycle_halted_iff hrun, finishCycle_running_iff hrun]
    exact (Bool.eq_false_or_eq_true _)
  exact ⟨by rw [finishCycle_executeSlot, hdecode], by rw [finishCycle_decodeSlot_valid, hfetch], hdec,
    by rw [finishCycle_fetchSlot_valid, hcan], hnew, by rw [finishCycle_pc, hcan],
    by rw [finishCycle_fetchExhausted, hexh, hcan, hsize], finishCycle_pendingFlush u,
    finishCycle_reg u, finishCycle_sreg u, finishCycle_cell u,
    (finishCycle_halted_iff hrun).trans (drained_iff _), hend,
    by rw [finishCycle_cycleCount, hcount], by rw [finishCycle_imem, himem],
    by rw [finishCycle_programSize, hsize], by rw [finishCycle_fault, hfault]⟩

/-! ### What a step can change -/

/-- A property that a step keeps: Commit's effect keeps it, and so do steps 2 to 6. -/
theorem step_keeps {P : State → State → Prop} (hrefl : ∀ s, P s s) (heffect : ∀ {s u}, Effect s u → P s u)
    (hfinish : ∀ {s u}, P s u → P s (finishCycle u)) {s t : State} (h : step s = .next t) : P s t := by
  rcases step_cases h with ⟨-, rfl⟩ | ⟨hs, -⟩
  · exact hrefl _
  · obtain ⟨u, hu, rfl⟩ := commitsTo_of_step hs h
    by_cases hf : u.status = .faulted
    · exact (afterCommit_of_faulted hf).symm ▸ heffect hu.effect
    · exact (afterCommit_of_not_faulted hf).symm ▸ hfinish (heffect hu.effect)

/-- Settles O31: no effect and none of steps 2 to 6 writes the program, so no run does. -/
theorem programIsImmutable : Obligations.ProgramIsImmutable := by
  intro s t n h
  refine run_keeps (P := fun u => u.imem = s.imem ∧ u.programSize = s.programSize) (fun u v hu hstep => ?_)
    ⟨rfl, rfl⟩ h
  have hkept : v.imem = u.imem ∧ v.programSize = u.programSize := by
    refine step_keeps (P := fun a b => b.imem = a.imem ∧ b.programSize = a.programSize) (fun _ => ⟨rfl, rfl⟩)
      (fun e => ?_) (fun h => by simpa using h) hstep
    obtain ⟨himem, hsize, -⟩ := e.controlSame
    exact ⟨himem, hsize⟩
  exact ⟨hkept.1.trans hu.1, hkept.2.trans hu.2⟩

/-- Fetch exhaustion is for good (R30). -/
theorem step_fetchExhausted {s t : State} (h : step s = .next t) :
    s.fetchExhausted = true → t.fetchExhausted = true := by
  refine step_keeps (P := fun a b => a.fetchExhausted = true → b.fetchExhausted = true) (fun _ => id)
    (fun e => ?_) (fun h he => ?_) h
  · obtain ⟨-, -, -, -, -, hexh, -⟩ := e.controlSame
    exact hexh.trans
  · rw [finishCycle_fetchExhausted, h he, Bool.true_or]

theorem canFetch_of_exhausted {s : State} (h : s.fetchExhausted = true) : canFetch s = false := by
  simp [canFetch, h]

/-- A step that ends Faulted has performed no cycle: it leaves the counter, as a stopped machine does (R150). -/
theorem step_cycleCount_of_no_cycle {s t : State} (h : step s = .next t)
    (hno : s.status ≠ .running ∨ t.status = .faulted) : t.cycleCount = s.cycleCount := by
  by_cases hs : s.status = .running
  · obtain ⟨-, hexec⟩ := exec_of_step_faulted hs h (hno.resolve_left (not_not_intro hs))
    obtain ⟨-, -, -, -, -, -, hcount⟩ := (effect_of_exec hexec).controlSame
    exact hcount
  · have hst := eq_of_step_of_not_running hs h
    rw [hst]

/-- Settles O33: exhaustion is kept (`step_fetchExhausted`), and a performed cycle is a commit, which leaves flag and
counter, and then `finishCycle`. -/
theorem exhaustionIsStickyAndCyclesCount : Obligations.ExhaustionIsStickyAndCyclesCount := by
  intro s t h
  refine ⟨step_fetchExhausted h, fun hs ht he => ?_, fun hs ht => ?_, step_cycleCount_of_no_cycle h⟩
  · obtain ⟨u, hu, -, rfl⟩ := finishCycle_of_step hs h ht
    obtain ⟨-, -, -, -, -, hexh, -⟩ := hu.effect.controlSame
    rw [finishCycle_fetchSlot_valid, canFetch_of_exhausted (hexh.trans he), Bool.false_and]
  · obtain ⟨u, hu, -, rfl⟩ := finishCycle_of_step hs h ht
    obtain ⟨-, -, -, -, -, -, hcount⟩ := hu.effect.controlSame
    rw [finishCycle_cycleCount, hcount]

/-- Commit without a fault either leaves `pc` and `pending_flush`, or is a taken branch to a target in the program
(R15, R122). -/
theorem CommitsTo.flowSame_or_redirect {s u : State} (h : CommitsTo s u) (hu : u.status ≠ .faulted) :
    FlowSame s u ∨ s.executeSlot.valid = true ∧ ∃ target, takenTarget s s.executeSlot.instr = some target ∧
      target.toNat < s.programSize.val ∧ u = s.redirect target := by
  rcases h with ⟨-, rfl⟩ | ⟨hvalid, hexec⟩
  · exact .inl ⟨rfl, rfl⟩
  · cases htaken : takenTarget s s.executeSlot.instr with
    | none =>
      cases hwf : s.executeSlot.instr.wellFormed
      · injection (exec_of_not_wellFormed hwf).symm.trans hexec with h
        exact absurd rfl (h ▸ hu)
      · obtain ⟨hflow, -⟩ := exec_flow hexec htaken hwf
        exact .inl hflow
    | some target =>
      injection (exec_of_takenTarget htaken).symm.trans hexec with h
      rcases resolveBranch_cases target s with ⟨hlt, hredirect⟩ | ⟨-, hraise⟩
      · exact .inr ⟨hvalid, target, rfl, hlt, h.symm.trans hredirect⟩
      · exact absurd rfl (hraise ▸ h ▸ hu)

/-- Settles O32: after a commit that leaves `pc`, only a fetch moves it; after a taken branch it is the target, and a
machine that is not exhausted fetches there. -/
theorem pcMovesOnlyByFetchOrBranch : Obligations.PcMovesOnlyByFetchOrBranch := by
  intro s t hstep hne
  by_cases hs : s.status = .running
  swap
  · have hst := eq_of_step_of_not_running hs hstep
    exact absurd (congrArg State.pc hst.symm) hne
  by_cases ht : t.status = .faulted
  · obtain ⟨-, hexec⟩ := exec_of_step_faulted hs hstep ht
    obtain ⟨r, -, rfl⟩ := (effect_of_exec hexec).raise_of_faulted hs ht
    exact absurd rfl hne
  obtain ⟨u, hu, hrun, rfl⟩ := finishCycle_of_step hs hstep ht
  refine ⟨hs, ?_⟩
  rw [finishCycle_pc] at hne ⊢
  rw [finishCycle_fetchSlot_fetchPc]
  rcases hu.flowSame_or_redirect (by simp [hrun]) with ⟨hpc, -⟩ | ⟨hvalid, target, htaken, hlt, rfl⟩
  · obtain ⟨-, hsize, -, -, -, hexh, -⟩ := hu.effect.controlSame
    cases hcan : canFetch u
    · rw [hcan] at hne
      exact absurd hpc hne
    · obtain ⟨hin, hnot⟩ := (canFetch_iff u).mp hcan
      exact .inl ⟨by simp [hpc], by simp [hpc], by rwa [← hpc, ← hsize], hexh ▸ hnot⟩
  · have hop : s.executeSlot.opcode = 4#4 ∧ s.executeSlot.op1 = 0#8 ∨ s.executeSlot.opcode = 7#4 := by
      rcases executeSlot_of_takenTarget htaken with ⟨hop, h0, -⟩ | ⟨hop, -⟩
      · exact .inl ⟨hop, h0⟩
      · exact .inr hop
    refine .inr ⟨target, hlt, hvalid, hop, ?_⟩
    cases hexh : s.fetchExhausted
    · have hcan : canFetch (s.redirect target) = true := (canFetch_iff _).mpr ⟨hlt, hexh⟩
      exact .inr (by simp [hcan])
    · have hcan : canFetch (s.redirect target) = false := canFetch_of_exhausted hexh
      exact .inl (by simp [hcan])

/-! ### The flags -/

/-- How an instruction of opcode `op` may change the flags from `f` to `g`: the columns of R20. -/
structure FlagColumns (op : Opcode) (f g : Sreg) : Prop where
  carry : g.c ≠ f.c → op = 0#4
  overflowSign : g.v ≠ f.v ∨ g.s ≠ f.s → op = 0#4 ∨ op = 1#4
  negativeZero : g.n ≠ f.n ∨ g.z ≠ f.z →
    op = 0#4 ∨ op = 1#4 ∨ op = 2#4 ∨ op = 5#4 ∨ op = 6#4 ∨ op = 8#4 ∨ op = 9#4
  sign : op = 0#4 ∨ op = 1#4 → g.s = (g.n ^^ g.v)

/-- An opcode that assigns no flag. -/
theorem FlagColumns.refl {op : Opcode} (f : Sreg) (h : op ≠ 0#4 ∧ op ≠ 1#4) : FlagColumns op f f :=
  ⟨fun h => absurd rfl h, fun h => by simp at h, fun h => by simp at h, fun h' => by simp [h] at h'⟩

/-- An opcode that assigns N and Z only. -/
theorem FlagColumns.afterLogic {op : Opcode} (r : Byte) (f : Sreg)
    (h : op = 2#4 ∨ op = 5#4 ∨ op = 6#4 ∨ op = 8#4 ∨ op = 9#4) : FlagColumns op f (f.afterLogic r) :=
  ⟨fun h => absurd rfl h, fun h => by simp [Sreg.afterLogic] at h, fun _ => .inr (.inr h),
    fun h' => by rcases h' with rfl | rfl <;> simp at h⟩

theorem resolveBranch_sreg (target : Word) (s : State) : (resolveBranch target s).sreg = s.sreg := by
  rcases resolveBranch_cases target s with ⟨-, e⟩ | ⟨-, e⟩ <;> simp [e]

/-- The execute unit changes the flags by the columns of R20. -/
theorem exec_flagColumns {i : Instr} {s t : State} (h : exec i s = .next t) :
    FlagColumns (opcodeOf (encode i)) s.sreg t.sreg := by
  cases i with
  | add d r =>
    injection h with h
    subst h
    rw [encode, opcodeOf_packFields]
    exact ⟨fun _ => rfl, fun _ => .inl rfl, fun _ => .inl rfl, fun _ => rfl⟩
  | sub d r =>
    injection h with h
    subst h
    rw [encode, opcodeOf_packFields]
    exact ⟨fun h => absurd rfl h, fun _ => .inr rfl, fun _ => .inr (.inl rfl), fun _ => rfl⟩
  | mul | andi | eor | sal | sar =>
    injection h with h
    subst h
    rw [encode, opcodeOf_packFields]
    exact .afterLogic _ _ (by decide)
  | movi | reserved12 | reserved13 | reserved14 | reserved15 =>
    injection h with h
    subst h
    rw [encode, opcodeOf_packFields]
    exact .refl _ (by decide)
  | ldr d addr =>
    injection (execLdr_eq d addr s).symm.trans h with h
    subst h
    rw [encode, opcodeOf_packFields]
    exact .refl _ (by decide)
  | str d addr =>
    injection (execStr_eq d addr s).symm.trans h with h
    subst h
    rw [encode, opcodeOf_packFields]
    exact .refl _ (by decide)
  | beqz d imm =>
    have hsreg : t.sreg = s.sreg := by
      by_cases h0 : op1 s = 0#8
      · injection (if_pos h0).symm.trans h with h
        exact h ▸ resolveBranch_sreg ..
      · injection (if_neg h0).symm.trans h with h
        rw [h]
    rw [hsreg, encode, opcodeOf_packFields]
    exact .refl _ (by decide)
  | br hi lo =>
    injection h with h
    rw [← h, resolveBranch_sreg, encode, opcodeOf_packFields]
    exact .refl _ (by decide)

/-- A step of a Running machine leaves the flags that Commit leaves: steps 2 to 6 write none. -/
theorem afterCommit_sreg (u : State) : (afterCommit u).sreg = u.sreg := by
  unfold afterCommit
  split
  · rfl
  · exact finishCycle_sreg u

/-- A step either leaves the flags and commits nothing, or commits the instruction in Execute, which changes them by
its columns. -/
theorem step_flags {s t : State} (h : step s = .next t) :
    ¬ (s.status = .running ∧ s.executeSlot.valid = true) ∧ t.sreg = s.sreg ∨
      s.executeSlot.valid = true ∧ FlagColumns s.executeSlot.opcode s.sreg t.sreg := by
  by_cases hs : s.status = .running
  · obtain ⟨u, hu, rfl⟩ := commitsTo_of_step hs h
    rw [afterCommit_sreg]
    rcases hu with ⟨hempty, rfl⟩ | ⟨hvalid, hexec⟩
    · exact .inl ⟨by simp [hempty], rfl⟩
    · have hcolumns := exec_flagColumns hexec
      rw [opcodeOf_encode_instr] at hcolumns
      exact .inr ⟨hvalid, hcolumns⟩
  · have hst := eq_of_step_of_not_running hs h
    exact .inl ⟨fun h => hs h.1, by rw [hst]⟩

/-- Settles O28: the flags a step changes are those in the columns of the opcode it commits (`step_flags`). -/
theorem flagsChangeOnlyForTheirOpcodes : Obligations.FlagsChangeOnlyForTheirOpcodes := by
  rintro s t _ rfl h
  rcases step_flags h with ⟨hnone, hsame⟩ | ⟨hvalid, hcolumns⟩
  · rw [hsame]
    exact ⟨fun h => absurd rfl h, fun h => by simp at h, fun h => by simp at h,
      fun hs hv => absurd ⟨hs, hv⟩ hnone⟩
  · exact ⟨fun h => ⟨hvalid, hcolumns.carry h⟩, fun h => ⟨hvalid, hcolumns.overflowSign h⟩,
      fun h => ⟨hvalid, hcolumns.negativeZero h⟩, fun _ _ => hcolumns.sign⟩

/-! ### The packed byte -/

theorem toByte_lt (f : Sreg) : f.toByte.toNat < 2 ^ 5 := by
  have hall : ∀ c v n s z : Bool, (Sreg.mk c v n s z).toByte.toNat < 2 ^ 5 := by decide
  exact hall ..

/-- Settles O29: the packed byte is a number of five bits. -/
theorem statusByteUpperBitsAreZero : Obligations.StatusByteUpperBitsAreZero :=
  fun s _ h => Nat.testBit_lt_two_pow ((toByte_lt s.sreg).trans_le (Nat.pow_le_pow_right (by decide) h))

/-! ### A store and a load -/

/-- Settles O18: the store stands in memory when the load commits in the next cycle. -/
theorem loadSeesTheStoreBeforeIt : Obligations.LoadSeesTheStoreBeforeIt := by
  intro s d e addr hs hE hstr hD hldr
  have hstore : CommitsTo s (s.setDmem (s.dmem.write addr.toNat (op1 s))) :=
    .inr ⟨hE, hstr ▸ execStr_eq d addr s⟩
  generalize hu : s.setDmem (s.dmem.write addr.toNat (op1 s)) = u at hstore
  have hcell : u.cell addr.toNat = op1 s := hu ▸ setDmem_write_cell_same ..
  have hrun : u.status = .running := hu ▸ hs
  have hslot : u.decodeSlot = s.decodeSlot := hu ▸ setDmem_decodeSlot ..
  have hstep : step s = .next (finishCycle u) := by
    rw [step_of_commitsTo hs hstore, afterCommit_of_not_faulted (by simp [hrun])]
  have hrun' : (finishCycle u).status = .running := by
    rw [finishCycle_running_iff hrun]
    simp [drained, hslot, hD]
  have hload : CommitsTo (finishCycle u) ((finishCycle u).writeReg e ((finishCycle u).cell addr.toNat)) := by
    refine .inr ⟨by rw [finishCycle_executeSlot, hslot, hD], ?_⟩
    rw [finishCycle_executeSlot, hslot, hldr]
    exact execLdr_eq ..
  refine ⟨_, (run_succ 1 hstep).trans (run_succ 0 (step_of_commitsTo hrun' hload)), ?_⟩
  rw [afterCommit_of_not_faulted (by simp [hrun'])]
  simpa [op1] using hcell

end Sys2Proof.Machine

/-! PROOF. The invariant between cycles: every step keeps it, with what is left of it between Commit and step 2 as the
half-way point; and what it says of the operand snapshots (R203, R204). -/

namespace Sys2Proof.Machine

/-! ### Between Commit and step 2 -/

/-- What the invariant says after Commit of a cycle that goes on. By then the snapshots in Decode may be out of date and
`pending_flush` may be set, so it does not speak of them; Execute is about to be overwritten. -/
structure CommittedInv (u : State) : Prop where
  memory : u.dmem.wf = true
  pcInProgram : u.pc.toNat ≤ u.programSize.val
  fetchFetched : u.fetchSlot.valid = true → SlotFetched u u.fetchSlot
  decodeFetched : u.decodeSlot.valid = true → SlotFetched u u.decodeSlot
  decodeDecoded : u.decodeSlot.valid = true → SlotDecoded u.decodeSlot
  decodeOp2 : u.decodeSlot.valid = true → isRFormat u.decodeSlot.opcode = false → u.decodeSlot.op2 = 0#8
  running : u.status = .running
  noFault : u.fault = none

/-- Which words a program holds depends on instruction memory and `program_size` only. -/
theorem slotFetched_congr {s u : State} (himem : u.imem = s.imem) (hsize : u.programSize = s.programSize)
    (slot : Slot) : SlotFetched u slot ↔ SlotFetched s slot := by
  simp only [SlotFetched, State.imemWord, himem, hsize]

theorem State.Inv.fault_eq_none {s : State} (h : s.Inv) (hs : s.status = .running) : s.fault = none := by
  rw [← Option.isSome_eq_false_iff.trans Option.isNone_iff_eq_none, ← Bool.not_eq_true, ← h.faultRecorded, hs]
  decide

theorem CommitsTo.committedInv {s u : State} (h : CommitsTo s u) (hinv : s.Inv) (hs : s.status = .running)
    (hu : u.status = .running) : CommittedInv u := by
  obtain ⟨himem, hsize, hfetch, hdecode, -⟩ := h.effect.controlSame
  obtain ⟨-, hfault⟩ := h.effect.runSame_of_not_faulted (by simp [hu])
  have hfetched := slotFetched_congr himem hsize
  exact
    { memory := h.effect.dmem_wf hinv.memory
      pcInProgram := hsize ▸ h.effect.pc_le hinv.pcInProgram
      fetchFetched := by simpa only [hfetch, hfetched] using hinv.fetchFetched
      decodeFetched := by simpa only [hdecode, hfetched] using hinv.decodeFetched
      decodeDecoded := hdecode ▸ hinv.decodeDecoded
      decodeOp2 := fun hvalid hformat => by
        rw [hdecode] at hvalid hformat ⊢
        obtain ⟨-, hop2⟩ := hinv.decodeSnapshots hvalid
        simpa [hformat] using hop2
      running := hu
      noFault := hfault.trans (hinv.fault_eq_none hs) }

/-! ### Steps 2 to 6 -/

/-- `pc` does not wrap while it is inside the program. -/
theorem pc_succ_toNat {s : State} (h : s.pc.toNat < s.programSize.val) : (s.pc + 1#16).toNat = s.pc.toNat + 1 := by
  have hsize := s.programSize.isLt
  have hone : (1#16).toNat = 1 := rfl
  rw [BitVec.toNat_add_of_lt (by omega), hone]

theorem finishCycle_pc_le {u : State} (h : u.pc.toNat ≤ u.programSize.val) :
    (finishCycle u).pc.toNat ≤ (finishCycle u).programSize.val := by
  rw [finishCycle_pc, finishCycle_programSize]
  split
  · next hcan =>
    obtain ⟨hlt, -⟩ := (canFetch_iff u).mp hcan
    rw [pc_succ_toNat hlt]
    exact hlt
  · exact h

theorem finishCycle_fetchSlot_fetched {u : State} (h : (finishCycle u).fetchSlot.valid = true) :
    SlotFetched u (finishCycle u).fetchSlot := by
  rw [finishCycle_fetchSlot_valid, Bool.and_eq_true] at h
  obtain ⟨hlt, -⟩ := (canFetch_iff u).mp h.1
  simpa only [SlotFetched, finishCycle_fetchSlot_raw, finishCycle_fetchSlot_fetchPc, if_pos h.1, and_true] using hlt

theorem finishCycle_decodeSlot_fetched {u : State} (h : u.fetchSlot.valid = true → SlotFetched u u.fetchSlot)
    (hvalid : (finishCycle u).decodeSlot.valid = true) : SlotFetched u (finishCycle u).decodeSlot := by
  rw [finishCycle_decodeSlot_valid, Bool.and_eq_true] at hvalid
  simpa only [SlotFetched, finishCycle_decodeSlot_raw, finishCycle_decodeSlot_fetchPc] using h hvalid.1

/-- A valid Decode slot came out of a valid Fetch slot. -/
theorem fetchSlot_valid_of_finishCycle {u : State} (h : (finishCycle u).decodeSlot.valid = true) :
    u.fetchSlot.valid = true := by
  rw [finishCycle_decodeSlot_valid, Bool.and_eq_true] at h
  exact h.1

/-- Steps 2 to 6 establish the invariant again. -/
theorem CommittedInv.finishCycle_inv {u : State} (h : CommittedInv u) : (finishCycle u).Inv := by
  have hfetched := slotFetched_congr (finishCycle_imem u) (finishCycle_programSize u)
  have hstatus : (finishCycle u).status ≠ .faulted := finishCycle_not_faulted (by simp [h.running])
  have hfault : (finishCycle u).fault = none := (finishCycle_fault u).trans h.noFault
  exact
    { memory := (finishCycle_dmem u).symm ▸ h.memory
      pcInProgram := finishCycle_pc_le h.pcInProgram
      noFlushPending := finishCycle_pendingFlush u
      fetchFetched := fun hv => (hfetched _).mpr (finishCycle_fetchSlot_fetched hv)
      decodeFetched := fun hv => (hfetched _).mpr (finishCycle_decodeSlot_fetched h.fetchFetched hv)
      decodeDecoded := fun hv => (finishCycle_decodeSlot_decoded (fetchSlot_valid_of_finishCycle hv)).1
      decodeSnapshots := fun hv => by
        simpa only [SlotSnapshots, finishCycle_reg] using
          (finishCycle_decodeSlot_decoded (fetchSlot_valid_of_finishCycle hv)).2
      executeFetched := by simpa only [finishCycle_executeSlot, hfetched] using h.decodeFetched
      executeDecoded := (finishCycle_executeSlot u).symm ▸ h.decodeDecoded
      executeOp2 := (finishCycle_executeSlot u).symm ▸ h.decodeOp2
      runningNotDrained := (finishCycle_running_iff h.running).mp
      haltedDrained := (finishCycle_halted_iff h.running).mp
      faultRecorded := iff_of_false hstatus (by rw [hfault]; simp)
      faultInExecute := fun r hr => by rw [hfault] at hr; cases hr
      counted := by simp }

/-! ### A fault -/

/-- A fault raised by the instruction in Execute changes only status and record, and the record is of that
instruction. -/
theorem State.Inv.raise {s : State} {r : FaultRecord} (h : s.Inv) (hvalid : s.executeSlot.valid = true)
    (hr : r.fetchPc = s.executeSlot.fetchPc) : (s.raise r).Inv :=
  { memory := h.memory
    pcInProgram := h.pcInProgram
    noFlushPending := h.noFlushPending
    fetchFetched := h.fetchFetched
    decodeFetched := h.decodeFetched
    decodeDecoded := h.decodeDecoded
    decodeSnapshots := h.decodeSnapshots
    executeFetched := h.executeFetched
    executeDecoded := h.executeDecoded
    executeOp2 := h.executeOp2
    runningNotDrained := fun hs => by simp at hs
    haltedDrained := fun hs => by simp at hs
    faultRecorded := by simp
    faultInExecute := fun r' hr' => ⟨hvalid, by cases hr'; exact hr⟩
    counted := h.counted }

/-! ### The two statements -/

/-- Settles O38: a stopped machine stays; a fault keeps the invariant (`State.Inv.raise`); a cycle keeps what it needs
over Commit (`CommitsTo.committedInv`) and restores the whole of it (`CommittedInv.finishCycle_inv`). -/
theorem everyStepKeepsTheInvariant : Obligations.EveryStepKeepsTheInvariant := by
  intro s t hinv hstep
  by_cases hs : s.status = .running
  · by_cases ht : t.status = .faulted
    · obtain ⟨hvalid, hexec⟩ := exec_of_step_faulted hs hstep ht
      obtain ⟨r, hr, rfl⟩ := (effect_of_exec hexec).raise_of_faulted hs ht
      exact hinv.raise hvalid hr
    · obtain ⟨u, hu, hrun, rfl⟩ := finishCycle_of_step hs hstep ht
      exact (hu.committedInv hinv hs hrun).finishCycle_inv
  · have hst := eq_of_step_of_not_running hs hstep
    exact hst ▸ hinv

/-- Snapshots as O26 words them: the second one is a register for R-format only. -/
theorem SlotSnapshots.operands {s : State} {slot : Slot} (h : SlotSnapshots s slot) :
    slot.op1 = s.reg slot.field1 ∧ (isRFormat slot.opcode = true → slot.op2 = s.reg slot.field2) :=
  ⟨h.1, fun hformat => by simpa [hformat] using h.2⟩

/-- Settles O26: Execute takes over the Decode slot, whose snapshots were taken before this commit, and the new Decode
slot is decoded after it; both are the invariant's `decodeSnapshots`, before and after the step. -/
theorem distanceOneReadsOldDistanceTwoReadsNew : Obligations.DistanceOneReadsOldDistanceTwoReadsNew := by
  intro s t hinv hs hstep ht
  have hafter : t.Inv := everyStepKeepsTheInvariant s t hinv hstep
  obtain ⟨u, hu, -, rfl⟩ := finishCycle_of_step hs hstep ht
  obtain ⟨-, -, -, hdecode, -⟩ := hu.effect.controlSame
  refine ⟨?_, fun hv => SlotSnapshots.operands (hafter.decodeSnapshots hv)⟩
  rw [finishCycle_executeSlot, hdecode]
  exact fun hv => SlotSnapshots.operands (hinv.decodeSnapshots hv)

end Sys2Proof.Machine

/-! PROOF. Reset and program load: the table of R201, the invariant at reset, and where load puts the words. -/

namespace Sys2Proof.Machine

/-! ### Reset -/

section
variable (m : Memory) (s : State)

@[simp] theorem clearForReset_pc : (clearForReset m s).pc = 0#16 := rfl
@[simp] theorem clearForReset_sreg : (clearForReset m s).sreg = Sreg.clear := rfl
@[simp] theorem clearForReset_dmem : (clearForReset m s).dmem = m := rfl
@[simp] theorem clearForReset_imem : (clearForReset m s).imem = s.imem := rfl
@[simp] theorem clearForReset_programSize : (clearForReset m s).programSize = s.programSize := rfl
@[simp] theorem clearForReset_decodeSlot : (clearForReset m s).decodeSlot = Slot.empty := rfl
@[simp] theorem clearForReset_executeSlot : (clearForReset m s).executeSlot = Slot.empty := rfl
@[simp] theorem clearForReset_pendingFlush : (clearForReset m s).pendingFlush = false := rfl
@[simp] theorem clearForReset_fetchExhausted : (clearForReset m s).fetchExhausted = false := rfl
@[simp] theorem clearForReset_cycleCount : (clearForReset m s).cycleCount = 1 := rfl
@[simp] theorem clearForReset_status : (clearForReset m s).status = .running := rfl
@[simp] theorem clearForReset_fault : (clearForReset m s).fault = none := rfl
@[simp] theorem clearForReset_imemWord (w : Word) : (clearForReset m s).imemWord w = s.imemWord w := rfl
@[simp] theorem clearForReset_reg (i : RegIdx) : (clearForReset m s).reg i = 0#8 := Vector.getElem_replicate ..

@[simp] theorem emptySlot_valid : Slot.empty.valid = false := rfl

/-- The prefetch finds a word exactly in a program that has one (R200). -/
theorem canFetch_clearForReset : canFetch (clearForReset m s) = decide (0 < s.programSize.val) := by
  simp [canFetch]

/-- After the prefetch of reset, only the Fetch slot can hold an instruction. -/
theorem drained_prefetched : drained (fetchStep (clearForReset m s)) = decide (s.programSize.val = 0) := by
  simp [drained, fetchStep_fetchExhausted, fetchStep_fetchSlot_valid, canFetch_clearForReset,
    Nat.pos_iff_ne_zero]

theorem resetMachine_status :
    (resetMachine m s).status = if s.programSize.val = 0 then .halted else .running := by
  simp [resetMachine, terminateCheck_status, drained_prefetched]

theorem resetMachine_pc : (resetMachine m s).pc = if 0 < s.programSize.val then 1#16 else 0#16 := by
  simp [resetMachine, fetchStep_pc, canFetch_clearForReset]

theorem resetMachine_fetchSlot_valid : (resetMachine m s).fetchSlot.valid = decide (0 < s.programSize.val) := by
  simp [resetMachine, fetchStep_fetchSlot_valid, canFetch_clearForReset]

theorem resetMachine_fetchExhausted : (resetMachine m s).fetchExhausted = decide (s.programSize.val = 0) := by
  simp [resetMachine, fetchStep_fetchExhausted, canFetch_clearForReset]

end

/-- Reset with a program prefetches its first word (R200). -/
theorem resetMachine_fetchSlot (m : Memory) {s : State} (h : 0 < s.programSize.val) :
    (resetMachine m s).fetchSlot.raw = s.imemWord 0#16 ∧ (resetMachine m s).fetchSlot.fetchPc = 0#16 := by
  have hcan : canFetch (clearForReset m s) = true := (canFetch_clearForReset m s).trans (decide_eq_true h)
  simp [resetMachine, fetchStep_fetchSlot_raw, fetchStep_fetchSlot_fetchPc, hcan]

/-- Settles O41: the reset values survive the prefetch and the Terminate check, whose own outcomes turn on
`program_size`. -/
theorem resetLeavesTheTabulatedState : Obligations.ResetLeavesTheTabulatedState := by
  rintro s _ m rfl
  have hprogram : 1 ≤ s.programSize.val → (resetMachine m s).pc = 1#16 ∧ (resetMachine m s).fetchSlot.valid = true ∧
      (resetMachine m s).fetchSlot.raw = s.imemWord 0#16 ∧ (resetMachine m s).fetchSlot.fetchPc = 0#16 ∧
      (resetMachine m s).fetchExhausted = false ∧ (resetMachine m s).status = .running := by
    intro h
    obtain ⟨hraw, hfetchPc⟩ := resetMachine_fetchSlot m h
    rw [resetMachine_pc, resetMachine_fetchSlot_valid, resetMachine_fetchExhausted, resetMachine_status]
    exact ⟨if_pos h, decide_eq_true h, hraw, hfetchPc, decide_eq_false (by omega), if_neg (by omega)⟩
  have hempty : s.programSize.val = 0 → (resetMachine m s).pc = 0#16 ∧ (resetMachine m s).fetchSlot.valid = false ∧
      (resetMachine m s).fetchExhausted = true ∧ (resetMachine m s).status = .halted := by
    intro h
    rw [resetMachine_pc, resetMachine_fetchSlot_valid, resetMachine_fetchExhausted, resetMachine_status]
    exact ⟨if_neg (by omega), decide_eq_false (by omega), decide_eq_true h, if_pos h⟩
  have hsreg : (resetMachine m s).sreg = Sreg.clear := by simp [resetMachine]
  have hdmem : (resetMachine m s).dmem = m := by simp [resetMachine]
  refine ⟨fun i => by simp [resetMachine], by rw [hsreg]; decide, fun a => by rw [State.cell, hdmem], ?_, ?_, ?_, ?_,
    ?_, ?_, ?_, hprogram, hempty⟩
  all_goals simp [resetMachine]

/-- The invariant of a state whose Decode and Execute slots are empty. -/
theorem inv_of_decode_execute_empty {t : State} (memory : t.dmem.wf = true)
    (pcInProgram : t.pc.toNat ≤ t.programSize.val) (noFlushPending : t.pendingFlush = false)
    (fetchFetched : t.fetchSlot.valid = true → SlotFetched t t.fetchSlot) (hD : t.decodeSlot.valid = false)
    (hE : t.executeSlot.valid = false) (counted : 1 ≤ t.cycleCount) (hfault : t.fault = none)
    (hstatus : t.status = if drained t then .halted else .running) : t.Inv where
  memory := memory
  pcInProgram := pcInProgram
  noFlushPending := noFlushPending
  fetchFetched := fetchFetched
  decodeFetched h := by simp [hD] at h
  decodeDecoded h := by simp [hD] at h
  decodeSnapshots h := by simp [hD] at h
  executeFetched h := by simp [hE] at h
  executeDecoded h := by simp [hE] at h
  executeOp2 h := by simp [hE] at h
  runningNotDrained h := by simpa [hstatus] using h
  haltedDrained h := by simpa [hstatus] using h
  faultRecorded := by
    rw [hstatus, hfault]
    split <;> simp
  faultInExecute r h := by simp [hfault] at h
  counted := counted

/-- Settles O40: after reset only the Fetch slot can hold an instruction, and it holds the word at index 0. -/
theorem resetOfAnyProgramHasTheInvariant : Obligations.ResetOfAnyProgramHasTheInvariant := by
  intro s m hm
  obtain ⟨-, -, -, hD, hE, hflush, hcount, hfault, himem, hsize, -⟩ := resetLeavesTheTabulatedState s _ m rfl
  refine inv_of_decode_execute_empty ?_ ?_ hflush (fun hvalid => ?_) hD hE hcount.ge hfault ?_
  · simpa [resetMachine] using hm
  · rw [resetMachine_pc, hsize]
    split
    · next h => exact h
    · exact Nat.zero_le _
  · rw [resetMachine_fetchSlot_valid, decide_eq_true_iff] at hvalid
    obtain ⟨hraw, hfetchPc⟩ := resetMachine_fetchSlot m hvalid
    rw [slotFetched_congr himem hsize, SlotFetched, hraw, hfetchPc]
    exact ⟨hvalid, rfl⟩
  · have hdrained : drained (resetMachine m s) = decide (s.programSize.val = 0) := by
      simp [drained, resetMachine_fetchExhausted, resetMachine_fetchSlot_valid, hD, hE, Nat.pos_iff_ne_zero]
    simp [resetMachine_status, hdrained]

/-- Settles O42: reset of the empty program, evaluated. -/
theorem resetStateIsTheEmptyProgram : Obligations.ResetStateIsTheEmptyProgram :=
  ⟨fun _ => Vector.getElem_replicate .., fun _ => rfl, rfl, rfl, rfl, rfl⟩

/-- Settles O39: `State.reset` is a reset (O42), and a reset has the invariant (O40). -/
theorem resetHasTheInvariant : Obligations.ResetHasTheInvariant := by
  obtain ⟨-, -, -, -, -, hreset⟩ := resetStateIsTheEmptyProgram
  have hinv := resetOfAnyProgramHasTheInvariant State.reset [] rfl
  rwa [hreset] at hinv

/-! ### Program load -/

/-- Settles O43: load stores the words from index 0 (`storeWords_getElem?`) or refuses. -/
theorem loadPlacesTheProgram : Obligations.LoadPlacesTheProgram := by
  intro words s
  rcases loadProgram_cases words s with ⟨hlt, hload⟩ | ⟨hgt, hload⟩
  · refine ⟨fun _ => ⟨_, hload, rfl, fun w hw => ?_, fun _ => rfl, fun _ => rfl, rfl, rfl⟩, fun h => by omega⟩
    have hstored : (storeWords 0 words s.imem)[w.toNat]? = words[w.toNat]? := by
      rw [storeWords_getElem?, if_pos (by omega), Nat.sub_zero]
    simp [State.imemWord, hstored, List.getElem?_eq_getElem hw]
  · exact ⟨fun h => by omega, fun _ => hload⟩

end Sys2Proof.Machine

/-! PROOF. Runs through the pipeline: a cycle whose commit leaves the flow alone, and with it the timeline of a fetched
word, the branch shadow, and how a machine drains (R148, R151 to R154). -/

namespace Sys2Proof.Machine

/-! ### A plain cycle -/

/-- A cycle of a Running machine that neither branches nor faults: `u` is the state after Commit. -/
structure PlainCycle (s u t : State) : Prop where
  running : s.status = .running
  noFlush : s.pendingFlush = false
  commits : CommitsTo s u
  flow : FlowSame s u
  run : RunSame s u
  control : ControlSame s u
  finish : t = finishCycle u

/-- A slot with nothing in it that branches or faults. -/
abbrev SlotPlain (slot : Slot) : Prop := slot.valid = true → PlainOpcode slot.opcode

/-- With an empty Execute slot, or a plain instruction in it, a Running machine performs a plain cycle. -/
theorem exists_plainCycle {s : State} (hs : s.status = .running) (hflush : s.pendingFlush = false)
    (hplain : SlotPlain s.executeSlot) : ∃ u t, PlainCycle s u t := by
  obtain ⟨u, hu⟩ := exists_commitsTo s
  suffices hsame : FlowSame s u ∧ RunSame s u from
    ⟨u, finishCycle u, hs, hflush, hu, hsame.1, hsame.2, hu.effect.controlSame, rfl⟩
  rcases hu with ⟨-, rfl⟩ | ⟨hvalid, hexec⟩
  · exact ⟨⟨rfl, rfl⟩, rfl, rfl⟩
  · have hop : PlainOpcode (opcodeOf (encode s.executeSlot.instr)) := by
      rw [opcodeOf_encode_instr]
      exact hplain hvalid
    have ⟨_, _, hlt⟩ := hop
    exact exec_flow hexec (takenTarget_of_plain hop) ((wellFormed_iff _).mpr hlt)

namespace PlainCycle
variable {s u t : State} (h : PlainCycle s u t)
include h

theorem running_after_commit : u.status = .running := h.run.1.trans h.running

theorem step : step s = .next t := by
  rw [step_of_commitsTo h.running h.commits, h.finish,
    afterCommit_of_not_faulted (by simp [h.running_after_commit])]

theorem canFetch_after_commit : canFetch u = canFetch s := by
  obtain ⟨-, hsize, -, -, -, hexh, -⟩ := h.control
  simp only [canFetch, h.flow.1, hsize, hexh]

theorem executeSlot : t.executeSlot = s.decodeSlot := by
  obtain ⟨-, -, -, hdecode, -⟩ := h.control
  rw [h.finish, finishCycle_executeSlot, hdecode]

theorem decodeSlot_valid : t.decodeSlot.valid = s.fetchSlot.valid := by
  obtain ⟨-, -, hfetch, -⟩ := h.control
  simp [h.finish, hfetch, h.flow.2, h.noFlush]

theorem decodeSlot_raw : t.decodeSlot.raw = s.fetchSlot.raw := by
  obtain ⟨-, -, hfetch, -⟩ := h.control
  simp [h.finish, hfetch]

theorem decodeSlot_fetchPc : t.decodeSlot.fetchPc = s.fetchSlot.fetchPc := by
  obtain ⟨-, -, hfetch, -⟩ := h.control
  simp [h.finish, hfetch]

theorem decodeSlot_decoded (hvalid : s.fetchSlot.valid = true) : SlotDecoded t.decodeSlot := by
  obtain ⟨-, -, hfetch, -⟩ := h.control
  rw [h.finish]
  exact (finishCycle_decodeSlot_decoded (hfetch ▸ hvalid)).1

theorem decodeSlot_plain (hplain : s.fetchSlot.valid = true → PlainOpcode (opcodeOf s.fetchSlot.raw)) :
    SlotPlain t.decodeSlot := by
  intro hvalid
  rw [h.decodeSlot_valid] at hvalid
  obtain ⟨hop, -⟩ := h.decodeSlot_decoded hvalid
  rw [hop, h.decodeSlot_raw]
  exact hplain hvalid

theorem fetchSlot_valid : t.fetchSlot.valid = canFetch s := by
  rw [h.finish, finishCycle_fetchSlot_valid, h.canFetch_after_commit, h.flow.2, h.noFlush, Bool.not_false,
    Bool.and_true]

theorem fetchSlot_raw (hcan : canFetch s = true) : t.fetchSlot.raw = s.imemWord s.pc := by
  obtain ⟨himem, -⟩ := h.control
  rw [h.finish, finishCycle_fetchSlot_raw, h.canFetch_after_commit, if_pos hcan, h.flow.1, State.imemWord, himem]
  rfl

theorem fetchSlot_fetchPc (hcan : canFetch s = true) : t.fetchSlot.fetchPc = s.pc := by
  rw [h.finish, finishCycle_fetchSlot_fetchPc, h.canFetch_after_commit, if_pos hcan, h.flow.1]

theorem pc : t.pc = if canFetch s then s.pc + 1#16 else s.pc := by
  rw [h.finish, finishCycle_pc, h.canFetch_after_commit, h.flow.1]

theorem fetchExhausted :
    t.fetchExhausted = (s.fetchExhausted || (!canFetch s && decide (s.programSize.val ≤ s.pc.toNat))) := by
  obtain ⟨-, hsize, -, -, -, hexh, -⟩ := h.control
  rw [h.finish, finishCycle_fetchExhausted, h.canFetch_after_commit, hexh, hsize, h.flow.1]

theorem pendingFlush : t.pendingFlush = false := by
  rw [h.finish, finishCycle_pendingFlush]

theorem programSize : t.programSize = s.programSize := by
  obtain ⟨-, hsize, -⟩ := h.control
  rw [h.finish, finishCycle_programSize, hsize]

theorem imemWord (w : Word) : t.imemWord w = s.imemWord w := by
  obtain ⟨himem, -⟩ := h.control
  rw [h.finish, finishCycle_imemWord, State.imemWord, himem]
  rfl

theorem cycleCount : t.cycleCount = s.cycleCount + 1 := by
  obtain ⟨-, -, -, -, -, -, hcount⟩ := h.control
  rw [h.finish, finishCycle_cycleCount, hcount]

theorem running_iff : t.status = .running ↔ drained t = false := by
  rw [h.finish]
  exact finishCycle_running_iff h.running_after_commit

theorem halted_iff : t.status = .halted ↔ drained t = true := by
  rw [h.finish]
  exact finishCycle_halted_iff h.running_after_commit

theorem regs : t.regs = u.regs := by rw [h.finish, finishCycle_regs]
theorem sreg : t.sreg = u.sreg := by rw [h.finish, finishCycle_sreg]
theorem dmem : t.dmem = u.dmem := by rw [h.finish, finishCycle_dmem]

/-- A plain cycle that commits nothing leaves registers, flags and data memory. -/
theorem data_of_empty (hE : s.executeSlot.valid = false) :
    t.regs = s.regs ∧ t.sreg = s.sreg ∧ t.dmem = s.dmem := by
  have hus : u = s := h.commits.eq_of_empty hE
  exact ⟨hus ▸ h.regs, hus ▸ h.sreg, hus ▸ h.dmem⟩

end PlainCycle

theorem not_drained_of_not_exhausted {s : State} (h : s.fetchExhausted = false) : drained s = false := by
  simp [drained, h]

theorem not_drained_of_decode {s : State} (h : s.decodeSlot.valid = true) : drained s = false := by
  simp [drained, h]

theorem not_drained_of_execute {s : State} (h : s.executeSlot.valid = true) : drained s = false := by
  simp [drained, h]

/-! ### A fetched word -/

/-- A cycle that may fetch finds the word at `pc`, and goes on. -/
theorem PlainCycle.fetched {s u t : State} (h : PlainCycle s u t) (hcan : canFetch s = true) :
    t.fetchSlot.valid = true ∧ t.fetchSlot.raw = s.imemWord s.pc ∧ t.fetchSlot.fetchPc = s.pc ∧
      t.fetchExhausted = false ∧ t.status = .running := by
  have hexh : t.fetchExhausted = false := by
    obtain ⟨-, hnot⟩ := (canFetch_iff s).mp hcan
    rw [h.fetchExhausted, hnot, hcan]
    rfl
  exact ⟨h.fetchSlot_valid.trans hcan, h.fetchSlot_raw hcan, h.fetchSlot_fetchPc hcan, hexh,
    h.running_iff.mpr (not_drained_of_not_exhausted hexh)⟩

/-- Two plain cycles move a word from Fetch to Execute, decoded on the way. -/
theorem fetchSlot_to_executeSlot {s u t v r : State} (h : PlainCycle s u t) (h' : PlainCycle t v r)
    (hvalid : s.fetchSlot.valid = true) :
    r.executeSlot.valid = true ∧ r.executeSlot.fetchPc = s.fetchSlot.fetchPc ∧
      r.executeSlot.raw = s.fetchSlot.raw ∧ SlotDecoded r.executeSlot := by
  rw [h'.executeSlot]
  exact ⟨h.decodeSlot_valid.trans hvalid, h.decodeSlot_fetchPc, h.decodeSlot_raw, h.decodeSlot_decoded hvalid⟩

theorem run_three {s t₁ t₂ t₃ : State} (h₁ : step s = .next t₁) (h₂ : step t₁ = .next t₂) (h₃ : step t₂ = .next t₃) :
    core.run 3 s = .next t₃ := by
  rw [run_succ 2 h₁, run_succ 1 h₂, run_succ 0 h₃, run_zero]

/-- Settles O24: three plain cycles, for the instructions that stood in Execute, Decode and Fetch, take the word at `pc`
into Fetch, Decode and Execute. -/
theorem wordAtPcRunsInTheFourthStep : Obligations.WordAtPcRunsInTheFourthStep := by
  rintro s _ hinv hs hexh hlt hE hD hF rfl
  have hcan : canFetch s = true := (canFetch_iff s).mpr ⟨hlt, hexh⟩
  obtain ⟨u₁, t₁, h₁⟩ := exists_plainCycle hs hinv.noFlushPending hE
  obtain ⟨hvalid₁, hraw₁, hfetchPc₁, -, hrun₁⟩ := h₁.fetched hcan
  obtain ⟨u₂, t₂, h₂⟩ := exists_plainCycle hrun₁ h₁.pendingFlush (h₁.executeSlot ▸ hD)
  have hrun₂ : t₂.status = .running := h₂.running_iff.mpr (not_drained_of_decode (h₂.decodeSlot_valid.trans hvalid₁))
  obtain ⟨u₃, t₃, h₃⟩ := exists_plainCycle hrun₂ h₂.pendingFlush (h₂.executeSlot ▸ h₁.decodeSlot_plain hF)
  obtain ⟨hvalid₃, hfetchPc₃, hraw₃, hdecoded₃⟩ := fetchSlot_to_executeSlot h₂ h₃ hvalid₁
  have hrun₃ : t₃.status = .running := h₃.running_iff.mpr (not_drained_of_execute hvalid₃)
  have hraw : t₃.executeSlot.raw = s.imemWord s.pc := hraw₃.trans hraw₁
  refine ⟨t₃, run_three h₁.step h₂.step h₃.step, hrun₃, hvalid₃, hfetchPc₃.trans hfetchPc₁, hraw, fun u hu => ?_⟩
  rw [← hraw, ← instr_of_slotDecoded hdecoded₃] at hu
  exact step_of_commitsTo hrun₃ (.inr ⟨hvalid₃, hu⟩)

/-! ### A taken branch -/

/-- The cycle in which the branch in Execute redirects to `target`. -/
structure BranchCycle (target : Word) (s t : State) : Prop where
  running : s.status = .running
  step : step s = .next t
  finish : t = finishCycle (s.redirect target)

theorem exists_branchCycle {s : State} {target : Word} (hs : s.status = .running) (hvalid : s.executeSlot.valid = true)
    (hexec : exec s.executeSlot.instr s = .next (s.redirect target)) : ∃ t, BranchCycle target s t := by
  have hrun : (s.redirect target).status ≠ .faulted := by simp [hs]
  have hstep : step s = .next (finishCycle (s.redirect target)) := by
    rw [step_of_commitsTo hs (.inr ⟨hvalid, hexec⟩), afterCommit_of_not_faulted hrun]
  exact ⟨_, hs, hstep, rfl⟩

namespace BranchCycle
variable {s t : State} {target : Word} (h : BranchCycle target s t)
include h

theorem executeSlot : t.executeSlot = s.decodeSlot := by simp [h.finish]
theorem decodeSlot_valid : t.decodeSlot.valid = false := by simp [h.finish]
theorem fetchSlot_valid : t.fetchSlot.valid = false := by simp [h.finish, finishCycle_fetchSlot_valid]
theorem pendingFlush : t.pendingFlush = false := by simp [h.finish]
theorem programSize : t.programSize = s.programSize := by simp [h.finish]
theorem imemWord (w : Word) : t.imemWord w = s.imemWord w := by simp [h.finish]
theorem data : RegsSame s t ∧ CellsSame s t ∧ t.sreg = s.sreg := by simp [h.finish, RegsSame, CellsSame]

theorem running_iff : t.status = .running ↔ drained t = false := by
  rw [h.finish]
  exact finishCycle_running_iff h.running

theorem halted_iff : t.status = .halted ↔ drained t = true := by
  rw [h.finish]
  exact finishCycle_halted_iff h.running

/-- A machine that is not exhausted fetches at the target in the same cycle, and the word is squashed. -/
theorem pc_of_not_exhausted (hexh : s.fetchExhausted = false) (hlt : target.toNat < s.programSize.val) :
    t.pc = target + 1#16 ∧ t.fetchExhausted = false := by
  have hcan : canFetch (s.redirect target) = true := (canFetch_iff _).mpr ⟨hlt, hexh⟩
  simp [h.finish, finishCycle_pc, finishCycle_fetchExhausted, hcan, hexh]

/-- An exhausted machine does not fetch at the target (R153). -/
theorem pc_of_exhausted (hexh : s.fetchExhausted = true) : t.pc = target ∧ t.fetchExhausted = true := by
  have hcan : canFetch (s.redirect target) = false := canFetch_of_exhausted hexh
  simp [h.finish, finishCycle_pc, finishCycle_fetchExhausted, hcan, hexh]

end BranchCycle

/-- With Decode and Execute empty, two cycles commit nothing and take the word in Fetch to Execute. -/
theorem word_in_fetch_reaches_execute {s : State} (hs : s.status = .running) (hflush : s.pendingFlush = false)
    (hF : s.fetchSlot.valid = true) (hD : s.decodeSlot.valid = false) (hE : s.executeSlot.valid = false) :
    ∃ t r, step s = .next t ∧ step t = .next r ∧ t.executeSlot.valid = false ∧
      (r.regs = s.regs ∧ r.sreg = s.sreg ∧ r.dmem = s.dmem) ∧
      r.executeSlot.valid = true ∧ r.executeSlot.fetchPc = s.fetchSlot.fetchPc ∧
      r.executeSlot.raw = s.fetchSlot.raw := by
  obtain ⟨_, t, h₁⟩ := exists_plainCycle hs hflush (fun hv => absurd (hE.symm.trans hv) (by decide))
  have hempty : t.executeSlot.valid = false := h₁.executeSlot ▸ hD
  have hrun : t.status = .running := h₁.running_iff.mpr (not_drained_of_decode (h₁.decodeSlot_valid.trans hF))
  obtain ⟨_, r, h₂⟩ := exists_plainCycle hrun h₁.pendingFlush (fun hv => absurd (hempty.symm.trans hv) (by decide))
  obtain ⟨hvalid, hfetchPc, hraw, -⟩ := fetchSlot_to_executeSlot h₁ h₂ hF
  obtain ⟨hregs₁, hsreg₁, hdmem₁⟩ := h₁.data_of_empty hE
  obtain ⟨hregs₂, hsreg₂, hdmem₂⟩ := h₂.data_of_empty hempty
  exact ⟨t, r, h₁.step, h₂.step, hempty, ⟨hregs₂.trans hregs₁, hsreg₂.trans hsreg₁, hdmem₂.trans hdmem₁⟩,
    hvalid, hfetchPc, hraw⟩

/-- Settles O34: the branch's cycle squashes Decode and Fetch and leaves `pc` one past the target; the next cycle
commits the word that stood in Decode and fetches; two more bring what it fetched to Execute
(`word_in_fetch_reaches_execute`). -/
theorem takenBranchResumesOnePastItsTarget : Obligations.TakenBranchResumesOnePastItsTarget := by
  intro s target hinv hs hexh hE hexec hD hplain _ hlt
  obtain ⟨t₁, h₁⟩ := exists_branchCycle hs hE hexec
  obtain ⟨hpc₁, hexh₁⟩ := h₁.pc_of_not_exhausted hexh (Nat.lt_of_succ_lt hlt)
  obtain ⟨hregs₁, hcells₁, hsreg₁⟩ := h₁.data
  have hrun₁ : t₁.status = .running := h₁.running_iff.mpr (not_drained_of_not_exhausted hexh₁)
  have hcan₁ : canFetch t₁ = true := by
    have hnext : (target + 1#16).toNat = target.toNat + 1 :=
      pc_succ_toNat (s := s.redirect target) (Nat.lt_of_succ_lt hlt)
    rw [canFetch_iff, hpc₁, hnext, h₁.programSize]
    exact ⟨hlt, hexh₁⟩
  obtain ⟨u, t₂, h₂⟩ := exists_plainCycle hrun₁ h₁.pendingFlush (h₁.executeSlot ▸ fun _ => hplain)
  obtain ⟨hvalid₂, hraw₂, hfetchPc₂, -, hrun₂⟩ := h₂.fetched hcan₁
  have hexecute₂ : t₂.executeSlot.valid = false := h₂.executeSlot ▸ h₁.decodeSlot_valid
  have hdecode₂ : t₂.decodeSlot.valid = false := h₂.decodeSlot_valid.trans h₁.fetchSlot_valid
  have hcommit : exec s.decodeSlot.instr t₁ = .next u := by
    rw [← h₁.executeSlot] at hD ⊢
    exact h₂.commits.exec_of_valid hD
  obtain ⟨t₃, t₄, hstep₃, hstep₄, hexecute₃, ⟨hregs₄, hsreg₄, hdmem₄⟩, hvalid₄, hfetchPc₄, hraw₄⟩ :=
    word_in_fetch_reaches_execute hrun₂ h₂.pendingFlush hvalid₂ hdecode₂ hexecute₂
  have hword : t₁.imemWord t₁.pc = s.imemWord (target + 1#16) := by rw [h₁.imemWord, hpc₁]
  exact ⟨t₁, t₂, t₃, t₄, h₁.step, h₂.step, hstep₃, hstep₄, h₁.executeSlot, h₁.decodeSlot_valid, h₁.fetchSlot_valid,
    hpc₁, hregs₁, hcells₁, hsreg₁, hexecute₂, hexecute₃,
    ⟨u, hcommit, h₂.regs, h₂.sreg, h₂.dmem, hregs₄.trans h₂.regs, hsreg₄.trans h₂.sreg, hdmem₄.trans h₂.dmem⟩,
    hvalid₄, (hfetchPc₄.trans hfetchPc₂).trans hpc₁, (hraw₄.trans hraw₂).trans hword⟩

/-! ### Draining -/

/-- A plain cycle of an exhausted machine moves its slots on and leaves `pc`. -/
theorem PlainCycle.exhausted {s u t : State} (h : PlainCycle s u t) (hexh : s.fetchExhausted = true) :
    t.fetchExhausted = true ∧ t.fetchSlot.valid = false ∧ t.pc = s.pc := by
  have hcan := canFetch_of_exhausted hexh
  refine ⟨?_, h.fetchSlot_valid.trans hcan, ?_⟩
  · rw [h.fetchExhausted, hexh, Bool.true_or]
  · rw [h.pc, hcan]
    rfl

/-- Settles O35: an exhausted machine does not fetch at the target, so after the branch's cycle only the next word is
left, and after one more cycle nothing. -/
theorem lateBranchOnlyMovesPc : Obligations.LateBranchOnlyMovesPc := by
  intro s target hs hexh hE hexec hplain
  obtain ⟨t₁, h₁⟩ := exists_branchCycle hs hE hexec
  obtain ⟨hpc₁, hexh₁⟩ := h₁.pc_of_exhausted hexh
  cases hD : s.decodeSlot.valid
  · have hhalt : t₁.status = .halted := h₁.halted_iff.mpr ((drained_iff t₁).mpr
      ⟨hexh₁, h₁.fetchSlot_valid, h₁.decodeSlot_valid, h₁.executeSlot ▸ hD⟩)
    exact ⟨t₁, (run_succ 1 h₁.step).trans (run_of_not_running 1 (by simp [hhalt])), hhalt, hpc₁⟩
  · have hrun : t₁.status = .running := h₁.running_iff.mpr (not_drained_of_execute (h₁.executeSlot ▸ hD))
    obtain ⟨u, t₂, h₂⟩ := exists_plainCycle hrun h₁.pendingFlush (h₁.executeSlot ▸ hplain)
    obtain ⟨hexh₂, hfetch₂, hpc₂⟩ := h₂.exhausted hexh₁
    have hhalt : t₂.status = .halted := h₂.halted_iff.mpr ((drained_iff t₂).mpr
      ⟨hexh₂, hfetch₂, h₂.decodeSlot_valid.trans h₁.fetchSlot_valid, h₂.executeSlot ▸ h₁.decodeSlot_valid⟩)
    exact ⟨t₂, (run_succ 1 h₁.step).trans (run_succ 0 h₂.step), hhalt, hpc₂.trans hpc₁⟩

/-- A machine that is Running after a step was Running before it. -/
theorem running_of_step {s t : State} (h : step s = .next t) (ht : t.status = .running) : s.status = .running := by
  by_contra hs
  have hst := eq_of_step_of_not_running hs h
  exact hs (hst ▸ ht)

/-- A cycle of an exhausted machine empties Fetch, and an empty slot moves on to Decode and to Execute; if the machine
is still Running, something is left. -/
theorem step_drains {s t : State} (hexh : s.fetchExhausted = true) (h : step s = .next t) (ht : t.status = .running) :
    t.fetchExhausted = true ∧ t.fetchSlot.valid = false ∧ (s.fetchSlot.valid = false → t.decodeSlot.valid = false) ∧
      (s.decodeSlot.valid = false → t.executeSlot.valid = false) ∧ drained t = false := by
  obtain ⟨u, hu, hrun, rfl⟩ := finishCycle_of_step (running_of_step h ht) h (by simp [ht])
  obtain ⟨-, -, hfetch, hdecode, -, hexhu, -⟩ := hu.effect.controlSame
  refine ⟨step_fetchExhausted h hexh, ?_, fun hF => ?_, fun hD => ?_, (finishCycle_running_iff hrun).mp ht⟩
  · rw [finishCycle_fetchSlot_valid, canFetch_of_exhausted (hexhu.trans hexh), Bool.false_and]
  · rw [finishCycle_decodeSlot_valid, hfetch, hF, Bool.false_and]
  · rw [finishCycle_executeSlot, hdecode, hD]

/-- Settles O36: were the machine Running after three steps, all three slots would be empty by then (`step_drains`),
and the Terminate check would have halted it. -/
theorem exhaustedMachineStopsWithinThreeCycles : Obligations.ExhaustedMachineStopsWithinThreeCycles := by
  intro s hexh
  obtain ⟨t₁, h₁⟩ := exists_step s
  obtain ⟨t₂, h₂⟩ := exists_step t₁
  obtain ⟨t₃, h₃⟩ := exists_step t₂
  refine ⟨t₃, run_three h₁ h₂ h₃, fun hrun₃ => ?_⟩
  have hrun₂ := running_of_step h₃ hrun₃
  obtain ⟨hexh₁, hfetch₁, -⟩ := step_drains hexh h₁ (running_of_step h₂ hrun₂)
  obtain ⟨hexh₂, hfetch₂, hdecode₂, -⟩ := step_drains hexh₁ h₂ hrun₂
  obtain ⟨hexh₃, hfetch₃, hdecode₃, hexecute₃, hnot⟩ := step_drains hexh₂ h₃ hrun₃
  have hdrained : drained t₃ = true :=
    (drained_iff t₃).mpr ⟨hexh₃, hfetch₃, hdecode₃ hfetch₂, hexecute₃ (hdecode₂ hfetch₁)⟩
  exact absurd (hdrained.symm.trans hnot) (by decide)

/-! ### Straight-line code -/

/-- A Running machine that has met, and will meet, neither a branch nor a reserved word. -/
structure StraightLine (s : State) : Prop where
  running : s.status = .running
  noFlush : s.pendingFlush = false
  pcInProgram : s.pc.toNat ≤ s.programSize.val
  program : ∀ w : Word, w.toNat < s.programSize.val → PlainOpcode (opcodeOf (s.imemWord w))
  fetchPlain : s.fetchSlot.valid = true → PlainOpcode (opcodeOf s.fetchSlot.raw)
  decodePlain : SlotPlain s.decodeSlot
  executePlain : SlotPlain s.executeSlot

/-- A machine with a plain program is on straight-line code, because its slots hold words of that program. -/
theorem State.Inv.straightLine {s : State} (hinv : s.Inv) (hs : s.status = .running)
    (hprogram : ∀ w : Word, w.toNat < s.programSize.val → PlainOpcode (opcodeOf (s.imemWord w))) :
    StraightLine s := by
  have hplain : ∀ slot : Slot, SlotFetched s slot → PlainOpcode (opcodeOf slot.raw) :=
    fun slot hslot => hslot.2 ▸ hprogram slot.fetchPc hslot.1
  exact
    { running := hs
      noFlush := hinv.noFlushPending
      pcInProgram := hinv.pcInProgram
      program := hprogram
      fetchPlain := fun hv => hplain _ (hinv.fetchFetched hv)
      decodePlain := fun hv => (hinv.decodeDecoded hv).1 ▸ hplain _ (hinv.decodeFetched hv)
      executePlain := fun hv => (hinv.executeDecoded hv).1 ▸ hplain _ (hinv.executeFetched hv) }

/-- A cycle of straight-line code is plain, and leaves straight-line code if it does not halt. -/
theorem StraightLine.cycle {s : State} (h : StraightLine s) :
    ∃ u t, PlainCycle s u t ∧ (t.status = .running → StraightLine t) := by
  obtain ⟨u, t, hc⟩ := exists_plainCycle h.running h.noFlush h.executePlain
  refine ⟨u, t, hc, fun ht =>
    { running := ht
      noFlush := hc.pendingFlush
      pcInProgram := ?_
      program := fun w hw => hc.imemWord w ▸ h.program w (hc.programSize ▸ hw)
      fetchPlain := fun hv => ?_
      decodePlain := hc.decodeSlot_plain h.fetchPlain
      executePlain := hc.executeSlot ▸ h.decodePlain }⟩
  · rw [hc.finish]
    have hsize : u.programSize = s.programSize := hc.control.2.1
    exact finishCycle_pc_le (by rw [hc.flow.1, hsize]; exact h.pcInProgram)
  · have hcan : canFetch s = true := hc.fetchSlot_valid.symm.trans hv
    obtain ⟨hlt, -⟩ := (canFetch_iff s).mp hcan
    rw [hc.fetchSlot_raw hcan]
    exact h.program s.pc hlt

/-- A run of `k` performed cycles from `s` that halts in `t`, and not before. -/
structure HaltsAfter (k : Nat) (s t : State) : Prop where
  run : core.run k s = .next t
  halted : t.status = .halted
  before : ∀ n, n < k → ∃ r, core.run n s = .next r ∧ r.status = .running

theorem HaltsAfter.refl {t : State} (h : t.status = .halted) : HaltsAfter 0 t t :=
  ⟨rfl, h, fun _ hn => absurd hn (Nat.not_lt_zero _)⟩

theorem HaltsAfter.step {k : Nat} {s r t : State} (h : HaltsAfter k r t) (hs : s.status = .running)
    (hstep : step s = .next r) : HaltsAfter (k + 1) s t where
  run := (run_succ k hstep).trans h.run
  halted := h.halted
  before n hn := by
    cases n with
    | zero => exact ⟨s, rfl, hs⟩
    | succ n =>
      obtain ⟨q, hq, hrun⟩ := h.before n (by omega)
      exact ⟨q, (run_succ n hstep).trans hq, hrun⟩

/-- The last word has just been fetched: it is decoded, moved to Execute and committed, and then the machine is
drained. -/
theorem StraightLine.drains {s : State} (h : StraightLine s) (hpc : s.pc.toNat = s.programSize.val)
    (hF : s.fetchSlot.valid = true) :
    ∃ t, HaltsAfter 3 s t ∧ t.pc = s.pc ∧ t.cycleCount = s.cycleCount + 3 := by
  have hcan : canFetch s = false := by simp [canFetch, hpc]
  obtain ⟨u₁, t₁, h₁, hnext₁⟩ := h.cycle
  have hexh₁ : t₁.fetchExhausted = true := by simp [h₁.fetchExhausted, hcan, hpc]
  have hpc₁ : t₁.pc = s.pc := by rw [h₁.pc, hcan]; rfl
  have hfetch₁ : t₁.fetchSlot.valid = false := h₁.fetchSlot_valid.trans hcan
  have hdecode₁ : t₁.decodeSlot.valid = true := h₁.decodeSlot_valid.trans hF
  have hline₁ := hnext₁ (h₁.running_iff.mpr (not_drained_of_decode hdecode₁))
  obtain ⟨u₂, t₂, h₂, hnext₂⟩ := hline₁.cycle
  obtain ⟨hexh₂, hfetch₂, hpc₂⟩ := h₂.exhausted hexh₁
  have hdecode₂ : t₂.decodeSlot.valid = false := h₂.decodeSlot_valid.trans hfetch₁
  have hexecute₂ : t₂.executeSlot.valid = true := h₂.executeSlot ▸ hdecode₁
  have hline₂ := hnext₂ (h₂.running_iff.mpr (not_drained_of_execute hexecute₂))
  obtain ⟨u₃, t₃, h₃, -⟩ := hline₂.cycle
  obtain ⟨hexh₃, hfetch₃, hpc₃⟩ := h₃.exhausted hexh₂
  have hhalt : t₃.status = .halted := h₃.halted_iff.mpr ((drained_iff t₃).mpr
    ⟨hexh₃, hfetch₃, h₃.decodeSlot_valid.trans hfetch₂, h₃.executeSlot ▸ hdecode₂⟩)
  have hhalts₁ : HaltsAfter 2 t₁ t₃ :=
    ((HaltsAfter.refl hhalt).step hline₂.running h₃.step).step hline₁.running h₂.step
  refine ⟨t₃, hhalts₁.step h.running h₁.step,
    hpc₃.trans (hpc₂.trans hpc₁), ?_⟩
  rw [h₃.cycleCount, h₂.cycleCount, h₁.cycleCount]

/-- Straight-line code with `m` words still to fetch: one cycle for each, and then three. -/
theorem StraightLine.halts (m : Nat) {s : State} (h : StraightLine s) (hexh : s.fetchExhausted = false)
    (hm : s.pc.toNat + m = s.programSize.val) (hF : m = 0 → s.fetchSlot.valid = true) :
    ∃ t, HaltsAfter (m + 3) s t ∧ t.pc.toNat = s.programSize.val ∧ t.cycleCount = s.cycleCount + (m + 3) := by
  induction m generalizing s with
  | zero =>
    obtain ⟨t, ht, hpc, hcount⟩ := h.drains hm (hF rfl)
    exact ⟨t, ht, hpc ▸ hm, hcount⟩
  | succ m ih =>
    have hlt : s.pc.toNat < s.programSize.val := by omega
    have hcan : canFetch s = true := (canFetch_iff s).mpr ⟨hlt, hexh⟩
    obtain ⟨u, r, hc, hnext⟩ := h.cycle
    obtain ⟨hvalid, -, -, hexh', hrun⟩ := hc.fetched hcan
    have hpc : r.pc.toNat = s.pc.toNat + 1 := by rw [hc.pc, if_pos hcan, pc_succ_toNat hlt]
    obtain ⟨t, ht, hend, hcount⟩ := ih (hnext hrun) hexh' (by rw [hpc, hc.programSize]; omega) (fun _ => hvalid)
    refine ⟨t, ?_, hc.programSize ▸ hend, by rw [hcount, hc.cycleCount]; omega⟩
    rw [Nat.succ_add_eq_add_succ]
    exact ht.step h.running hc.step

/-- Settles O37: a plain program is straight-line code (`State.Inv.straightLine`), which fetches its words and drains
(`StraightLine.halts`). -/
theorem straightLineCodeHaltsOnTime : Obligations.StraightLineCodeHaltsOnTime := by
  rintro s _ hinv hs hexh hprogram hleft rfl
  have hle := hinv.pcInProgram
  obtain ⟨t, ht, hpc, hcount⟩ := (hinv.straightLine hs hprogram).halts (s.programSize.val - s.pc.toNat) hexh
    (by omega) (fun h0 => hleft.resolve_left (by omega))
  exact ⟨⟨t, ht.run, ht.halted, hpc, hcount⟩, ht.before⟩

end Sys2Proof.Machine

/-! PROOF. What nothing depends on: a general simulation between runs, and with it the words beyond the program (R24),
the flags (R21) and the fields of an empty slot (R28). -/

namespace Sys2Proof.Machine

/-! ### Simulations -/

/-- A relation between states that Commit and steps 2 to 6 keep. -/
structure CycleSimulation (R : State → State → Prop) : Prop where
  status : ∀ {s s'}, R s s' → s'.status = s.status
  commit : ∀ {s s' u}, R s s' → CommitsTo s u → ∃ u', CommitsTo s' u' ∧ R u u'
  finish : ∀ {u u'}, R u u' → R (finishCycle u) (finishCycle u')

theorem CycleSimulation.step {R : State → State → Prop} (sim : CycleSimulation R) {s s' t : State} (h : R s s')
    (hstep : step s = .next t) : ∃ t', Machine.step s' = .next t' ∧ R t t' := by
  by_cases hs : s.status = .running
  · obtain ⟨u, hu, rfl⟩ := commitsTo_of_step hs hstep
    obtain ⟨u', hu', hR⟩ := sim.commit h hu
    refine ⟨afterCommit u', step_of_commitsTo ((sim.status h).trans hs) hu', ?_⟩
    by_cases hf : u.status = .faulted
    · rwa [afterCommit_of_faulted hf, afterCommit_of_faulted ((sim.status hR).trans hf)]
    · rw [afterCommit_of_not_faulted hf, afterCommit_of_not_faulted (sim.status hR ▸ hf)]
      exact sim.finish hR
  · have hst := eq_of_step_of_not_running hs hstep
    exact ⟨s', step_of_not_running (sim.status h ▸ hs), hst ▸ h⟩

theorem CycleSimulation.run {R : State → State → Prop} (sim : CycleSimulation R) (n : Nat) {s s' t : State}
    (h : R s s') (hrun : core.run n s = .next t) : ∃ t', core.run n s' = .next t' ∧ R t t' := by
  induction n generalizing s s' with
  | zero =>
    injection (run_zero s).symm.trans hrun with hst
    exact ⟨s', rfl, hst ▸ h⟩
  | succ n ih =>
    obtain ⟨r, hr, hrest⟩ := run_succ_cases hrun
    obtain ⟨r', hr', hR⟩ := sim.step h hr
    obtain ⟨t', ht', hRt⟩ := ih hR hrest
    exact ⟨t', (run_succ n hr').trans ht', hRt⟩

/-! ### What the execute unit does not look at -/

/-- The state with instruction memory, the Fetch slot and the Decode slot replaced. -/
def State.setFront (m : Vector Word 1024) (f d : Slot) (s : State) : State :=
  { s with imem := m, fetchSlot := f, decodeSlot := d }

theorem resolveBranch_setFront (target : Word) (s : State) (m : Vector Word 1024) (f d : Slot) :
    resolveBranch target (s.setFront m f d) = (resolveBranch target s).setFront m f d := by
  simp only [resolveBranch, apply_ite (State.setFront m f d)]
  rfl

/-- The execute unit works on the Execute slot, the registers, the flags and data memory only (R142). -/
theorem exec_setFront {i : Instr} {s t : State} (m : Vector Word 1024) (f d : Slot) (h : exec i s = .next t) :
    exec i (s.setFront m f d) = .next (t.setFront m f d) := by
  cases i with
  | add | sub | mul | movi | andi | eor | sal | sar | reserved12 | reserved13 | reserved14 | reserved15 =>
    injection h with h
    subst h
    rfl
  | beqz r imm =>
    by_cases h0 : op1 s = 0#8
    · injection (if_pos h0).symm.trans h with h
      subst h
      exact (if_pos h0).trans (congrArg _ (resolveBranch_setFront ..))
    · injection (if_neg h0).symm.trans h with h
      subst h
      exact if_neg h0
  | br hi lo =>
    injection h with h
    subst h
    exact congrArg _ (resolveBranch_setFront ..)
  | ldr r addr =>
    injection (execLdr_eq r addr s).symm.trans h with h
    subst h
    exact execLdr_eq r addr (s.setFront m f d)
  | str r addr =>
    injection (execStr_eq r addr s).symm.trans h with h
    subst h
    exact execStr_eq r addr (s.setFront m f d)

theorem CommitsTo.setFront {s u : State} (m : Vector Word 1024) (f d : Slot) (h : CommitsTo s u) :
    CommitsTo (s.setFront m f d) (u.setFront m f d) := by
  rcases h with ⟨hempty, rfl⟩ | ⟨hvalid, hexec⟩
  · exact .inl ⟨hempty, rfl⟩
  · exact .inr ⟨hvalid, exec_setFront m f d hexec⟩

/-! ### Words beyond the program -/

/-- The state with instruction memory replaced. -/
def State.setImem (m : Vector Word 1024) (s : State) : State := { s with imem := m }

/-- `s'` is `s` with instruction memory replaced by `m`, which holds the same program. -/
def SameProgram (m : Vector Word 1024) (s s' : State) : Prop :=
  (∀ i, i < s.programSize.val → m[i]? = s.imem[i]?) ∧ s' = s.setImem m

/-- Fetch reads a word below `program_size` only. -/
theorem fetchStep_setImem {s : State} {m : Vector Word 1024} (h : ∀ i, i < s.programSize.val → m[i]? = s.imem[i]?) :
    fetchStep (s.setImem m) = (fetchStep s).setImem m := by
  have hcan : canFetch (s.setImem m) = canFetch s := rfl
  unfold fetchStep
  rw [hcan]
  split
  · next hfetch =>
    obtain ⟨hlt, -⟩ := (canFetch_iff s).mp hfetch
    have hword : (s.setImem m).imemWord (s.setImem m).pc = s.imemWord s.pc :=
      congrArg (·.getD 0#16) (h s.pc.toNat hlt)
    rw [hword]
    rfl
  · rfl

theorem flushStep_setImem (s : State) (m : Vector Word 1024) : flushStep (s.setImem m) = (flushStep s).setImem m := by
  simp only [flushStep, apply_ite (State.setImem m)]
  rfl

theorem terminateCheck_setImem (s : State) (m : Vector Word 1024) :
    terminateCheck (s.setImem m) = (terminateCheck s).setImem m := by
  simp only [terminateCheck, apply_ite (State.setImem m)]
  rfl

theorem finishCycle_setImem {s : State} {m : Vector Word 1024}
    (h : ∀ i, i < s.programSize.val → m[i]? = s.imem[i]?) :
    finishCycle (s.setImem m) = (finishCycle s).setImem m := by
  have front : decodeStage (advance (s.setImem m)) = (decodeStage (advance s)).setImem m := rfl
  have hfront : ∀ i, i < (decodeStage (advance s)).programSize.val → m[i]? = (decodeStage (advance s)).imem[i]? := h
  rw [finishCycle, front, fetchStep_setImem hfront, flushStep_setImem, terminateCheck_setImem]
  rfl

theorem sameProgram_simulation (m : Vector Word 1024) : CycleSimulation (SameProgram m) where
  status h := by rw [h.2]; rfl
  commit := by
    rintro s _ u ⟨hm, rfl⟩ hu
    obtain ⟨himem, hsize, hfetch, hdecode, -⟩ := hu.effect.controlSame
    have hs : s.setFront m u.fetchSlot u.decodeSlot = s.setImem m := by
      rw [hfetch, hdecode]
      rfl
    exact ⟨u.setImem m, hs ▸ hu.setFront m u.fetchSlot u.decodeSlot, by rwa [himem, hsize], rfl⟩
  finish := by
    rintro u _ ⟨hm, rfl⟩
    exact ⟨by simpa using hm, finishCycle_setImem hm⟩

/-- Settles O45: the replaced memory holds the same program, which is all that Fetch reads of it. -/
theorem wordsBeyondTheProgramAreNeverRead : Obligations.WordsBeyondTheProgramAreNeverRead := by
  intro s t m hm hstep
  obtain ⟨_, ht', -, rfl⟩ := (sameProgram_simulation m).step ⟨hm, rfl⟩ hstep
  exact ht'

/-! ### The flags -/

theorem resolveBranch_setSreg (target : Word) (s : State) (f : Sreg) :
    resolveBranch target (s.setSreg f) = (resolveBranch target s).setSreg f := by
  simp only [resolveBranch, apply_ite (State.setSreg f)]
  rfl

/-- The execute unit writes flags and reads none (R21). -/
theorem exec_setSreg {i : Instr} {s t : State} (f : Sreg) (h : exec i s = .next t) :
    ∃ g, exec i (s.setSreg f) = .next (t.setSreg g) := by
  cases i with
  | add | sub | mul | movi | andi | eor | sal | sar | reserved12 | reserved13 | reserved14 | reserved15 =>
    injection h with h
    subst h
    exact ⟨_, rfl⟩
  | beqz r imm =>
    refine ⟨f, ?_⟩
    by_cases h0 : op1 s = 0#8
    · injection (if_pos h0).symm.trans h with h
      subst h
      exact (if_pos h0).trans (congrArg _ (resolveBranch_setSreg ..))
    · injection (if_neg h0).symm.trans h with h
      subst h
      exact if_neg h0
  | br hi lo =>
    injection h with h
    subst h
    exact ⟨f, congrArg _ (resolveBranch_setSreg ..)⟩
  | ldr r addr =>
    injection (execLdr_eq r addr s).symm.trans h with h
    subst h
    exact ⟨f, execLdr_eq r addr (s.setSreg f)⟩
  | str r addr =>
    injection (execStr_eq r addr s).symm.trans h with h
    subst h
    exact ⟨f, execStr_eq r addr (s.setSreg f)⟩

theorem fetchStep_setSreg (s : State) (f : Sreg) : fetchStep (s.setSreg f) = (fetchStep s).setSreg f := by
  simp only [fetchStep, apply_ite (State.setSreg f)]
  rfl

theorem flushStep_setSreg (s : State) (f : Sreg) : flushStep (s.setSreg f) = (flushStep s).setSreg f := by
  simp only [flushStep, apply_ite (State.setSreg f)]
  rfl

theorem terminateCheck_setSreg (s : State) (f : Sreg) :
    terminateCheck (s.setSreg f) = (terminateCheck s).setSreg f := by
  simp only [terminateCheck, apply_ite (State.setSreg f)]
  rfl

/-- Steps 2 to 6 do not use the flags. -/
theorem finishCycle_setSreg (s : State) (f : Sreg) : finishCycle (s.setSreg f) = (finishCycle s).setSreg f := by
  have front : decodeStage (advance (s.setSreg f)) = (decodeStage (advance s)).setSreg f := rfl
  rw [finishCycle, front, fetchStep_setSreg, flushStep_setSreg, terminateCheck_setSreg]
  rfl

/-- `s'` is `s` but for the flags. -/
def SameButFlags (s s' : State) : Prop := ∃ f, s' = s.setSreg f

theorem sameButFlags_simulation : CycleSimulation SameButFlags where
  status := by
    rintro s _ ⟨f, rfl⟩
    rfl
  commit := by
    rintro s _ u ⟨f, rfl⟩ (⟨hempty, rfl⟩ | ⟨hvalid, hexec⟩)
    · exact ⟨_, .inl ⟨hempty, rfl⟩, f, rfl⟩
    · obtain ⟨g, hg⟩ := exec_setSreg f hexec
      exact ⟨_, .inr ⟨hvalid, hg⟩, g, rfl⟩
  finish := by
    rintro u _ ⟨f, rfl⟩
    exact ⟨f, finishCycle_setSreg u f⟩

/-- Settles O46: no part of a cycle reads a flag, so states that differ in the flags stay so. -/
theorem flagsAreNeverRead : Obligations.FlagsAreNeverRead := by
  intro s t f n hrun
  obtain ⟨_, ht', g, rfl⟩ := sameButFlags_simulation.run n ⟨f, rfl⟩ hrun
  exact ⟨g, ht'⟩

/-! ### Empty slots -/

theorem slot_meaning_eq_iff (d d' : Slot) :
    d.meaning = d'.meaning ↔ d.valid = d'.valid ∧ (d.valid = true → d = d') := by
  cases h : d.valid <;> cases h' : d'.valid <;> simp [Slot.meaning, h, h']
  · exact fun e => by simp [← e] at h'
  · exact fun e => by simp [e] at h

theorem fetchedMeaning_eq_iff (f f' : Slot) : f.fetchedMeaning = f'.fetchedMeaning ↔
    f.valid = f'.valid ∧ (f.valid = true → f.raw = f'.raw ∧ f.fetchPc = f'.fetchPc) := by
  cases h : f.valid <;> cases h' : f'.valid <;> simp [Slot.fetchedMeaning, h, h', Slot.empty]

/-- States of equal meaning, field by field. -/
theorem meaning_eq_iff (s s' : State) : s.meaning = s'.meaning ↔
    s.regs = s'.regs ∧ s.pc = s'.pc ∧ s.sreg = s'.sreg ∧ s.dmem = s'.dmem ∧ s.imem = s'.imem ∧
      s.programSize = s'.programSize ∧ s.fetchSlot.fetchedMeaning = s'.fetchSlot.fetchedMeaning ∧
      s.decodeSlot.meaning = s'.decodeSlot.meaning ∧ s.executeSlot.meaning = s'.executeSlot.meaning ∧
      s.pendingFlush = s'.pendingFlush ∧ s.fetchExhausted = s'.fetchExhausted ∧ s.cycleCount = s'.cycleCount ∧
      s.status = s'.status ∧ s.fault = s'.fault := by
  simp [State.meaning]

/-- Decode makes the same of two fetched slots of equal meaning. -/
theorem Slot.decoded_congr {f f' : Slot} {s s' : State} (hregs : s.regs = s'.regs)
    (h : f.fetchedMeaning = f'.fetchedMeaning) (hvalid : f.valid = true) : f.decoded s = f'.decoded s' := by
  obtain ⟨hv, hfields⟩ := (fetchedMeaning_eq_iff f f').mp h
  obtain ⟨hraw, hfetchPc⟩ := hfields hvalid
  have hreg : ∀ i, s.reg i = s'.reg i := fun i => by simp only [State.reg, hregs]
  simp [Slot.decoded, hvalid, ← hv, hraw, hfetchPc, hreg]

/-- Steps 2 to 6 keep equality of meaning: Decode overwrites the fields that the Fetch slot does not mean, and Fetch the
others. -/
theorem finishCycle_meaning_congr {u u' : State} (h : u.meaning = u'.meaning) :
    (finishCycle u).meaning = (finishCycle u').meaning := by
  obtain ⟨hregs, hpc, hsreg, hdmem, himem, hsize, hF, hD, hE, hflush, hexh, hcount, hstatus, hfault⟩ :=
    (meaning_eq_iff u u').mp h
  obtain ⟨hFvalid, -⟩ := (fetchedMeaning_eq_iff ..).mp hF
  obtain ⟨hDvalid, -⟩ := (slot_meaning_eq_iff ..).mp hD
  have hcan : canFetch u = canFetch u' := by simp only [canFetch, hpc, hsize, hexh]
  have hword : ∀ w, u.imemWord w = u'.imemWord w := fun w => by simp only [State.imemWord, himem]
  have hfetch : (finishCycle u).fetchSlot.fetchedMeaning = (finishCycle u').fetchSlot.fetchedMeaning := by
    rw [fetchedMeaning_eq_iff, finishCycle_fetchSlot_valid, finishCycle_fetchSlot_valid, hcan, hflush]
    refine ⟨rfl, fun hvalid => ?_⟩
    rw [Bool.and_eq_true] at hvalid
    simp [finishCycle_fetchSlot_raw, finishCycle_fetchSlot_fetchPc, hcan, hvalid.1, hword, hpc]
  have hdecode : (finishCycle u).decodeSlot.meaning = (finishCycle u').decodeSlot.meaning := by
    rw [slot_meaning_eq_iff, finishCycle_decodeSlot_valid, finishCycle_decodeSlot_valid, hFvalid, hflush]
    refine ⟨rfl, fun hvalid => ?_⟩
    rw [Bool.and_eq_true, ← hFvalid] at hvalid
    rw [finishCycle_decodeSlot, finishCycle_decodeSlot, Slot.decoded_congr hregs hF hvalid.1, hFvalid, hflush]
  have hexh' : (finishCycle u).fetchExhausted = (finishCycle u').fetchExhausted := by
    simp only [finishCycle_fetchExhausted, hexh, hcan, hsize, hpc]
  have hdrained : drained (finishCycle u) = drained (finishCycle u') := by
    simp only [drained, hexh', finishCycle_fetchSlot_valid, finishCycle_decodeSlot_valid, finishCycle_executeSlot,
      hcan, hflush, hFvalid, hDvalid]
  rw [meaning_eq_iff]
  simp only [finishCycle_regs, finishCycle_sreg, finishCycle_dmem, finishCycle_imem, finishCycle_programSize,
    finishCycle_executeSlot, finishCycle_pendingFlush, finishCycle_cycleCount, finishCycle_fault, finishCycle_pc,
    finishCycle_status, hregs, hpc, hsreg, hdmem, himem, hsize, hfetch, hdecode, hD, hexh', hcount, hstatus, hfault,
    hcan, hdrained, and_self]

/-- With an instruction in Execute, states of equal meaning differ in the Fetch and the Decode slot only. -/
theorem eq_setFront_of_meaning_eq {s s' : State} (h : s.meaning = s'.meaning) (hvalid : s.executeSlot.valid = true) :
    s' = s.setFront s.imem s'.fetchSlot s'.decodeSlot := by
  obtain ⟨hregs, hpc, hsreg, hdmem, himem, hsize, -, -, hE, hflush, hexh, hcount, hstatus, hfault⟩ :=
    (meaning_eq_iff s s').mp h
  obtain ⟨-, hE⟩ := (slot_meaning_eq_iff ..).mp hE
  simp only [State.setFront, hregs, hpc, hsreg, hdmem, himem, hsize, hE hvalid, hflush, hexh, hcount, hstatus, hfault]

/-- Replacing the two slots by others of the same meaning. -/
theorem setFront_meaning {s : State} {m : Vector Word 1024} {f d : Slot} (hm : s.imem = m)
    (hf : s.fetchSlot.fetchedMeaning = f.fetchedMeaning) (hd : s.decodeSlot.meaning = d.meaning) :
    s.meaning = (s.setFront m f d).meaning :=
  (meaning_eq_iff ..).mpr ⟨rfl, rfl, rfl, rfl, hm, rfl, hf, hd, rfl, rfl, rfl, rfl, rfl, rfl⟩

theorem CommitsTo.meaning_congr {s s' u : State} (h : s.meaning = s'.meaning) (hu : CommitsTo s u) :
    ∃ u', CommitsTo s' u' ∧ u.meaning = u'.meaning := by
  obtain ⟨himem, -, hfetch, hdecode, -⟩ := hu.effect.controlSame
  obtain ⟨-, -, -, -, -, -, hF, hD, hE, -⟩ := (meaning_eq_iff s s').mp h
  cases hvalid : s.executeSlot.valid
  · have hus : u = s := hu.eq_of_empty hvalid
    obtain ⟨hvalid', -⟩ := (slot_meaning_eq_iff ..).mp hE
    exact ⟨s', .inl ⟨hvalid'.symm.trans hvalid, rfl⟩, hus ▸ h⟩
  · refine ⟨u.setFront s.imem s'.fetchSlot s'.decodeSlot, ?_, setFront_meaning himem (hfetch ▸ hF) (hdecode ▸ hD)⟩
    rw [eq_setFront_of_meaning_eq h hvalid]
    exact hu.setFront ..

theorem meaning_simulation : CycleSimulation fun s s' => s.meaning = s'.meaning where
  status h := (congrArg State.status h).symm
  commit := CommitsTo.meaning_congr
  finish := finishCycle_meaning_congr

/-- Settles O47: a cycle reads of a state no more than its meaning. -/
theorem invalidSlotFieldsAreNeverRead : Obligations.InvalidSlotFieldsAreNeverRead := by
  intro s s' t n h hrun
  obtain ⟨t', ht', hmeaning⟩ := meaning_simulation.run n h hrun
  exact ⟨t', ht', hmeaning.symm⟩

end Sys2Proof.Machine
